-- ==== Sys2Proof/Word.lean ====
section
/-! DEFINITION. The word types of PNGdec CORE and the plainest arithmetic of its notation (00_scope R5). -/

namespace Sys2Proof

/-- A byte, 8 bits, 0 to 255 (R5). -/
abbrev Byte := BitVec 8

/-- `ceil(a / b)` of rule R5, `(a + b − 1) div b` for positive `b`. -/
def divUp (a b : Nat) : Nat := (a + b - 1) / b

/-- A Boolean as the number of the one-bit register it stands for. -/
def bitNat (b : Bool) : Nat := if b then 1 else 0

end Sys2Proof
end

