-- ==== Sys2Proof/Syntax.lean ====
section
/-! DEFINITION. The instruction set of PNGdec CORE: one constructor per row of spec/opcode_table.json (R89). -/

namespace Sys2Proof

/-- One row of the opcode table: a stream element, a symbol, a filter tag, a pixel format, a command or an answer.
A constructor carries the bits of the row's word (R89) that its match and mask leave open, and nothing else: an extra field
is no part of the word and is read by the meaning (R81, R324). -/
inductive Instr where
  -- Stream header and block headers (formats ZHDR, BLKHDR).
  /-- R71, R100: the zlib header; the 16-bit word is `{FLG, CMF}`. -/
  | zhdr (cmf flg : Byte)
  /-- R72, R101: header of a stored block; `final` = BFINAL. -/
  | blkStored (final : Bool)
  /-- R72, R104: header of a fixed-Huffman block. -/
  | blkFixed (final : Bool)
  /-- R72, R101: header of a dynamic-Huffman block. -/
  | blkDynamic (final : Bool)
  /-- R72, R106: block type 3, reserved. -/
  | blkReserved (final : Bool)
  -- Stored blocks and dynamic headers (formats STORED, DYNHDR): no selecting bits.
  /-- R73, R102: LEN and NLEN of a stored block. -/
  | storedHdr
  /-- R103: one byte of a stored block. -/
  | storedByte
  /-- R74, R105: header of a dynamic block. -/
  | dynHdr
  -- Code-length symbols (format CLSYM).
  /-- R110: one code length 0. -/
  | cl0
  /-- R110: one code length 1. -/
  | cl1
  /-- R110: one code length 2. -/
  | cl2
  /-- R110: one code length 3. -/
  | cl3
  /-- R110: one code length 4. -/
  | cl4
  /-- R110: one code length 5. -/
  | cl5
  /-- R110: one code length 6. -/
  | cl6
  /-- R110: one code length 7. -/
  | cl7
  /-- R110: one code length 8. -/
  | cl8
  /-- R110: one code length 9. -/
  | cl9
  /-- R110: one code length 10. -/
  | cl10
  /-- R110: one code length 11. -/
  | cl11
  /-- R110: one code length 12. -/
  | cl12
  /-- R110: one code length 13. -/
  | cl13
  /-- R110: one code length 14. -/
  | cl14
  /-- R110: one code length 15. -/
  | cl15
  /-- R111: repeat the previous code length. -/
  | cl16
  /-- R112: repeat zero, short. -/
  | cl17
  /-- R113: repeat zero, long. -/
  | cl18
  -- Literal/length symbols (format LLSYM).
  /-- R142: literal byte `b`. -/
  | lit (b : Byte)
  /-- R143: end of block. -/
  | eob
  /-- R150: length symbol 257, base 3, 0 extra bits. -/
  | len257
  /-- R151: length symbol 258, base 4, 0 extra bits. -/
  | len258
  /-- R152: length symbol 259, base 5, 0 extra bits. -/
  | len259
  /-- R153: length symbol 260, base 6, 0 extra bits. -/
  | len260
  /-- R154: length symbol 261, base 7, 0 extra bits. -/
  | len261
  /-- R155: length symbol 262, base 8, 0 extra bits. -/
  | len262
  /-- R156: length symbol 263, base 9, 0 extra bits. -/
  | len263
  /-- R157: length symbol 264, base 10, 0 extra bits. -/
  | len264
  /-- R158: length symbol 265, base 11, 1 extra bits. -/
  | len265
  /-- R159: length symbol 266, base 13, 1 extra bits. -/
  | len266
  /-- R160: length symbol 267, base 15, 1 extra bits. -/
  | len267
  /-- R161: length symbol 268, base 17, 1 extra bits. -/
  | len268
  /-- R162: length symbol 269, base 19, 2 extra bits. -/
  | len269
  /-- R163: length symbol 270, base 23, 2 extra bits. -/
  | len270
  /-- R164: length symbol 271, base 27, 2 extra bits. -/
  | len271
  /-- R165: length symbol 272, base 31, 2 extra bits. -/
  | len272
  /-- R166: length symbol 273, base 35, 3 extra bits. -/
  | len273
  /-- R167: length symbol 274, base 43, 3 extra bits. -/
  | len274
  /-- R168: length symbol 275, base 51, 3 extra bits. -/
  | len275
  /-- R169: length symbol 276, base 59, 3 extra bits. -/
  | len276
  /-- R170: length symbol 277, base 67, 4 extra bits. -/
  | len277
  /-- R171: length symbol 278, base 83, 4 extra bits. -/
  | len278
  /-- R172: length symbol 279, base 99, 4 extra bits. -/
  | len279
  /-- R173: length symbol 280, base 115, 4 extra bits. -/
  | len280
  /-- R174: length symbol 281, base 131, 5 extra bits. -/
  | len281
  /-- R175: length symbol 282, base 163, 5 extra bits. -/
  | len282
  /-- R176: length symbol 283, base 195, 5 extra bits. -/
  | len283
  /-- R177: length symbol 284, base 227, 5 extra bits. -/
  | len284
  /-- R178: length symbol 285, base 258, 0 extra bits. -/
  | len285
  /-- R144: reserved literal/length symbol. -/
  | ll286
  /-- R144: reserved literal/length symbol. -/
  | ll287
  -- Distance symbols (format DSYM).
  /-- R180: distance symbol 0, base 1, 0 extra bits. -/
  | dist0
  /-- R181: distance symbol 1, base 2, 0 extra bits. -/
  | dist1
  /-- R182: distance symbol 2, base 3, 0 extra bits. -/
  | dist2
  /-- R183: distance symbol 3, base 4, 0 extra bits. -/
  | dist3
  /-- R184: distance symbol 4, base 5, 1 extra bits. -/
  | dist4
  /-- R185: distance symbol 5, base 7, 1 extra bits. -/
  | dist5
  /-- R186: distance symbol 6, base 9, 2 extra bits. -/
  | dist6
  /-- R187: distance symbol 7, base 13, 2 extra bits. -/
  | dist7
  /-- R188: distance symbol 8, base 17, 3 extra bits. -/
  | dist8
  /-- R189: distance symbol 9, base 25, 3 extra bits. -/
  | dist9
  /-- R190: distance symbol 10, base 33, 4 extra bits. -/
  | dist10
  /-- R191: distance symbol 11, base 49, 4 extra bits. -/
  | dist11
  /-- R192: distance symbol 12, base 65, 5 extra bits. -/
  | dist12
  /-- R193: distance symbol 13, base 97, 5 extra bits. -/
  | dist13
  /-- R194: distance symbol 14, base 129, 6 extra bits. -/
  | dist14
  /-- R195: distance symbol 15, base 193, 6 extra bits. -/
  | dist15
  /-- R196: distance symbol 16, base 257, 7 extra bits. -/
  | dist16
  /-- R197: distance symbol 17, base 385, 7 extra bits. -/
  | dist17
  /-- R198: distance symbol 18, base 513, 8 extra bits. -/
  | dist18
  /-- R199: distance symbol 19, base 769, 8 extra bits. -/
  | dist19
  /-- R200: distance symbol 20, base 1025, 9 extra bits. -/
  | dist20
  /-- R201: distance symbol 21, base 1537, 9 extra bits. -/
  | dist21
  /-- R202: distance symbol 22, base 2049, 10 extra bits. -/
  | dist22
  /-- R203: distance symbol 23, base 3073, 10 extra bits. -/
  | dist23
  /-- R204: distance symbol 24, base 4097, 11 extra bits. -/
  | dist24
  /-- R205: distance symbol 25, base 6145, 11 extra bits. -/
  | dist25
  /-- R206: distance symbol 26, base 8193, 12 extra bits. -/
  | dist26
  /-- R207: distance symbol 27, base 12289, 12 extra bits. -/
  | dist27
  /-- R208: distance symbol 28, base 16385, 13 extra bits. -/
  | dist28
  /-- R209: distance symbol 29, base 24577, 13 extra bits. -/
  | dist29
  /-- R146: reserved distance symbol. -/
  | dist30
  /-- R146: reserved distance symbol. -/
  | dist31
  -- Micro-steps (format MICRO): no bits.
  /-- R148: copy one byte of the pending match. -/
  | matchByte
  /-- R301: INF_STATE = END while the image is incomplete. -/
  | endStep
  -- Filter tags (format FTAG).
  /-- R224: tag byte 0. -/
  | filtNone
  /-- R225: tag byte 1. -/
  | filtSub
  /-- R226: tag byte 2. -/
  | filtUp
  /-- R227: tag byte 3. -/
  | filtAvg
  /-- R228: tag byte 4. -/
  | filtPaeth
  /-- R229: reserved tags 5. -/
  | filtReserved5
  /-- R229: reserved tags 6 to 7, `low` = the tag's open low bits. -/
  | filtReserved6to7 (low : BitVec 1)
  /-- R229: reserved tags 8 to 15, `low` = the tag's open low bits. -/
  | filtReserved8to15 (low : BitVec 3)
  /-- R229: reserved tags 16 to 31, `low` = the tag's open low bits. -/
  | filtReserved16to31 (low : BitVec 4)
  /-- R229: reserved tags 32 to 63, `low` = the tag's open low bits. -/
  | filtReserved32to63 (low : BitVec 5)
  /-- R229: reserved tags 64 to 127, `low` = the tag's open low bits. -/
  | filtReserved64to127 (low : BitVec 6)
  /-- R229: reserved tags 128 to 255, `low` = the tag's open low bits. -/
  | filtReserved128to255 (low : BitVec 7)
  -- Pixel formats (format PIXFMT).
  /-- R263: COLORTYPE 0, BITDEPTH 1. -/
  | pixG1
  /-- R264: COLORTYPE 0, BITDEPTH 2. -/
  | pixG2
  /-- R265: COLORTYPE 0, BITDEPTH 4. -/
  | pixG4
  /-- R266: COLORTYPE 0, BITDEPTH 8. -/
  | pixG8
  /-- R267: COLORTYPE 2, BITDEPTH 8. -/
  | pixRgb8
  /-- R268: COLORTYPE 3, BITDEPTH 1. -/
  | pixI1
  /-- R269: COLORTYPE 3, BITDEPTH 2. -/
  | pixI2
  /-- R270: COLORTYPE 3, BITDEPTH 4. -/
  | pixI4
  /-- R271: COLORTYPE 3, BITDEPTH 8. -/
  | pixI8
  /-- R272: COLORTYPE 4, BITDEPTH 8. -/
  | pixGa8
  /-- R273: COLORTYPE 6, BITDEPTH 8. -/
  | pixRgba8
  /-- R274: COLORTYPE 0, BITDEPTH 16. -/
  | pixG16
  /-- R275: COLORTYPE 2, BITDEPTH 16. -/
  | pixRgb16
  /-- R276: COLORTYPE 4, BITDEPTH 16. -/
  | pixGa16
  /-- R277: COLORTYPE 6, BITDEPTH 16. -/
  | pixRgba16
  /-- R278: every other pair (COLORTYPE, BITDEPTH). -/
  | pixOther (ct bd : Byte)
  -- Commands (format CMD).
  /-- R291. -/
  | reset
  /-- R292. -/
  | commitHeader
  /-- R293. -/
  | start
  /-- R302: command code 0. -/
  | cmdIllegal0
  /-- R302: command codes 4 to 7, `low` = bits 1:0 of the code. -/
  | cmdIllegal4to7 (low : BitVec 2)
  -- Answers of the row sink (format ROWANS).
  /-- R298: answer bit 0. -/
  | answerContinue
  /-- R299: answer bit 1. -/
  | answerStop
  deriving DecidableEq, Repr

end Sys2Proof
end

