-- ==== Sys2Proof/WellFormed.lean ====
section
/-! DEFINITION. Which terms of Instr are instructions of the opcode table (R89). -/

namespace Sys2Proof

/-- The pairs `(COLORTYPE, BITDEPTH)` that have a row of their own (R263 to R277): the eleven converted formats and the four
16-bit formats. -/
def namedPixelPairs : List (Nat × Nat) :=
  [(0, 1), (0, 2), (0, 4), (0, 8), (2, 8), (3, 1), (3, 2), (3, 4), (3, 8), (4, 8), (6, 8)]
    ++ [(0, 16), (2, 16), (4, 16), (6, 16)]

/-- A term is well formed when it is the row that its word selects. The one row whose open bits overlap other rows is
PIX_OTHER ("every word not matched by another PIXFMT row"): its pair must have no row of its own. Every other term is well
formed whatever its open bits. -/
def Instr.wf (i : Instr) : Bool :=
  match i with
  | .zhdr _ _ => true
  | .blkStored _ => true
  | .blkFixed _ => true
  | .blkDynamic _ => true
  | .blkReserved _ => true
  | .storedHdr => true
  | .storedByte => true
  | .dynHdr => true
  | .cl0 => true
  | .cl1 => true
  | .cl2 => true
  | .cl3 => true
  | .cl4 => true
  | .cl5 => true
  | .cl6 => true
  | .cl7 => true
  | .cl8 => true
  | .cl9 => true
  | .cl10 => true
  | .cl11 => true
  | .cl12 => true
  | .cl13 => true
  | .cl14 => true
  | .cl15 => true
  | .cl16 => true
  | .cl17 => true
  | .cl18 => true
  | .lit _ => true
  | .eob => true
  | .len257 => true
  | .len258 => true
  | .len259 => true
  | .len260 => true
  | .len261 => true
  | .len262 => true
  | .len263 => true
  | .len264 => true
  | .len265 => true
  | .len266 => true
  | .len267 => true
  | .len268 => true
  | .len269 => true
  | .len270 => true
  | .len271 => true
  | .len272 => true
  | .len273 => true
  | .len274 => true
  | .len275 => true
  | .len276 => true
  | .len277 => true
  | .len278 => true
  | .len279 => true
  | .len280 => true
  | .len281 => true
  | .len282 => true
  | .len283 => true
  | .len284 => true
  | .len285 => true
  | .ll286 => true
  | .ll287 => true
  | .dist0 => true
  | .dist1 => true
  | .dist2 => true
  | .dist3 => true
  | .dist4 => true
  | .dist5 => true
  | .dist6 => true
  | .dist7 => true
  | .dist8 => true
  | .dist9 => true
  | .dist10 => true
  | .dist11 => true
  | .dist12 => true
  | .dist13 => true
  | .dist14 => true
  | .dist15 => true
  | .dist16 => true
  | .dist17 => true
  | .dist18 => true
  | .dist19 => true
  | .dist20 => true
  | .dist21 => true
  | .dist22 => true
  | .dist23 => true
  | .dist24 => true
  | .dist25 => true
  | .dist26 => true
  | .dist27 => true
  | .dist28 => true
  | .dist29 => true
  | .dist30 => true
  | .dist31 => true
  | .matchByte => true
  | .endStep => true
  | .filtNone => true
  | .filtSub => true
  | .filtUp => true
  | .filtAvg => true
  | .filtPaeth => true
  | .filtReserved5 => true
  | .filtReserved6to7 _ => true
  | .filtReserved8to15 _ => true
  | .filtReserved16to31 _ => true
  | .filtReserved32to63 _ => true
  | .filtReserved64to127 _ => true
  | .filtReserved128to255 _ => true
  | .pixG1 => true
  | .pixG2 => true
  | .pixG4 => true
  | .pixG8 => true
  | .pixRgb8 => true
  | .pixI1 => true
  | .pixI2 => true
  | .pixI4 => true
  | .pixI8 => true
  | .pixGa8 => true
  | .pixRgba8 => true
  | .pixG16 => true
  | .pixRgb16 => true
  | .pixGa16 => true
  | .pixRgba16 => true
  | .pixOther ct bd => !(namedPixelPairs.contains (ct.toNat, bd.toNat))
  | .reset => true
  | .commitHeader => true
  | .start => true
  | .cmdIllegal0 => true
  | .cmdIllegal4to7 _ => true
  | .answerContinue => true
  | .answerStop => true

/-- The length symbols 257 to 285 (R145): the rows after which the same step decodes a distance symbol (R141). -/
def Instr.isLength (i : Instr) : Bool :=
  match i with
  | .zhdr _ _ => false
  | .blkStored _ => false
  | .blkFixed _ => false
  | .blkDynamic _ => false
  | .blkReserved _ => false
  | .storedHdr => false
  | .storedByte => false
  | .dynHdr => false
  | .cl0 => false
  | .cl1 => false
  | .cl2 => false
  | .cl3 => false
  | .cl4 => false
  | .cl5 => false
  | .cl6 => false
  | .cl7 => false
  | .cl8 => false
  | .cl9 => false
  | .cl10 => false
  | .cl11 => false
  | .cl12 => false
  | .cl13 => false
  | .cl14 => false
  | .cl15 => false
  | .cl16 => false
  | .cl17 => false
  | .cl18 => false
  | .lit _ => false
  | .eob => false
  | .len257 => true
  | .len258 => true
  | .len259 => true
  | .len260 => true
  | .len261 => true
  | .len262 => true
  | .len263 => true
  | .len264 => true
  | .len265 => true
  | .len266 => true
  | .len267 => true
  | .len268 => true
  | .len269 => true
  | .len270 => true
  | .len271 => true
  | .len272 => true
  | .len273 => true
  | .len274 => true
  | .len275 => true
  | .len276 => true
  | .len277 => true
  | .len278 => true
  | .len279 => true
  | .len280 => true
  | .len281 => true
  | .len282 => true
  | .len283 => true
  | .len284 => true
  | .len285 => true
  | .ll286 => false
  | .ll287 => false
  | .dist0 => false
  | .dist1 => false
  | .dist2 => false
  | .dist3 => false
  | .dist4 => false
  | .dist5 => false
  | .dist6 => false
  | .dist7 => false
  | .dist8 => false
  | .dist9 => false
  | .dist10 => false
  | .dist11 => false
  | .dist12 => false
  | .dist13 => false
  | .dist14 => false
  | .dist15 => false
  | .dist16 => false
  | .dist17 => false
  | .dist18 => false
  | .dist19 => false
  | .dist20 => false
  | .dist21 => false
  | .dist22 => false
  | .dist23 => false
  | .dist24 => false
  | .dist25 => false
  | .dist26 => false
  | .dist27 => false
  | .dist28 => false
  | .dist29 => false
  | .dist30 => false
  | .dist31 => false
  | .matchByte => false
  | .endStep => false
  | .filtNone => false
  | .filtSub => false
  | .filtUp => false
  | .filtAvg => false
  | .filtPaeth => false
  | .filtReserved5 => false
  | .filtReserved6to7 _ => false
  | .filtReserved8to15 _ => false
  | .filtReserved16to31 _ => false
  | .filtReserved32to63 _ => false
  | .filtReserved64to127 _ => false
  | .filtReserved128to255 _ => false
  | .pixG1 => false
  | .pixG2 => false
  | .pixG4 => false
  | .pixG8 => false
  | .pixRgb8 => false
  | .pixI1 => false
  | .pixI2 => false
  | .pixI4 => false
  | .pixI8 => false
  | .pixGa8 => false
  | .pixRgba8 => false
  | .pixG16 => false
  | .pixRgb16 => false
  | .pixGa16 => false
  | .pixRgba16 => false
  | .pixOther _ _ => false
  | .reset => false
  | .commitHeader => false
  | .start => false
  | .cmdIllegal0 => false
  | .cmdIllegal4to7 _ => false
  | .answerContinue => false
  | .answerStop => false

end Sys2Proof
end

