-- ==== Sys2Proof/Decode.lean ====
section
/-! DEFINITION. The decoder of PNGdec CORE's opcode table (30_encoding R70 to R89), the bit layer under it (R41, R42, R44,
R130), and after them the encoder. The decoder is total and refuses by name. -/

namespace Sys2Proof

/-- The twelve formats of rule R89: which word a row's match and mask apply to. -/
inductive Format where
  | zhdr | blkhdr | stored | dynhdr | clsym | llsym | dsym | micro | ftag | pixfmt | cmd | rowans
  deriving DecidableEq, Repr

/-- Width in bits of the format's word (R89). The formats STORED, DYNHDR and MICRO have no selecting bits in the table:
INF_STATE selects their row, so their word here is the 4-bit INF_STATE value (R13, log 2). -/
def Format.width (f : Format) : Nat :=
  match f with
  | .zhdr => 16
  | .blkhdr => 3
  | .stored => 4
  | .dynhdr => 4
  | .clsym => 5
  | .llsym => 9
  | .dsym => 5
  | .micro => 4
  | .ftag => 8
  | .pixfmt => 16
  | .cmd => 3
  | .rowans => 1

/-- Why a word names no row. -/
inductive Reject where
  /-- The word has a bit above the format's width. -/
  | tooWide (f : Format) (w : Nat)
  /-- No row of the format matches the word: a code-length symbol above 18, a literal/length symbol above 287, an INF_STATE
  value that selects no row of the format. -/
  | noRow (f : Format) (w : Nat)
  deriving DecidableEq, Repr

/-! ### Decoding, one function per format -/

/-- ZHDR: the word `{FLG[7:0], CMF[7:0]}` (R71, R89). Every word is the element ZHDR; whether its fields pass the checks is
the meaning's business (R100). -/
def decodeZhdr (w : Nat) : Instr := .zhdr (BitVec.ofNat 8 w) (BitVec.ofNat 8 (w / 256))

/-- BLKHDR: the word `{BTYPE[1:0], BFINAL}` (R72, R89). -/
def decodeBlkhdr (w : Nat) : Instr :=
  match w / 2 % 4 with
  | 0 => .blkStored (w.testBit 0)
  | 1 => .blkFixed (w.testBit 0)
  | 2 => .blkDynamic (w.testBit 0)
  | _ => .blkReserved (w.testBit 0)

/-- The 19 code-length symbols in increasing number (R76). -/
def clSymInstrs : List Instr :=
  [.cl0, .cl1, .cl2, .cl3, .cl4, .cl5, .cl6, .cl7, .cl8, .cl9,
    .cl10, .cl11, .cl12, .cl13, .cl14, .cl15, .cl16, .cl17, .cl18]

/-- The literal/length symbols 256 to 287 in increasing number (R77, R78). -/
def llSymInstrs : List Instr :=
  [.eob, .len257, .len258, .len259, .len260, .len261, .len262, .len263, .len264, .len265,
    .len266, .len267, .len268, .len269, .len270, .len271, .len272, .len273, .len274, .len275,
    .len276, .len277, .len278, .len279, .len280, .len281, .len282, .len283, .len284, .len285,
    .ll286, .ll287]

/-- The 32 distance symbols in increasing number (R79). -/
def dSymInstrs : List Instr :=
  [.dist0, .dist1, .dist2, .dist3, .dist4, .dist5, .dist6, .dist7, .dist8, .dist9,
    .dist10, .dist11, .dist12, .dist13, .dist14, .dist15, .dist16, .dist17, .dist18, .dist19,
    .dist20, .dist21, .dist22, .dist23, .dist24, .dist25, .dist26, .dist27, .dist28, .dist29,
    .dist30, .dist31]
/-- FTAG: the filter tag byte (R82, R85, R229). -/
def decodeFtag (b : Byte) : Instr :=
  let t := b.toNat
  if t = 0 then .filtNone
  else if t = 1 then .filtSub
  else if t = 2 then .filtUp
  else if t = 3 then .filtAvg
  else if t = 4 then .filtPaeth
  else if t = 5 then .filtReserved5
  else if t < 8 then .filtReserved6to7 (BitVec.ofNat 1 t)
  else if t < 16 then .filtReserved8to15 (BitVec.ofNat 3 t)
  else if t < 32 then .filtReserved16to31 (BitVec.ofNat 4 t)
  else if t < 64 then .filtReserved32to63 (BitVec.ofNat 5 t)
  else if t < 128 then .filtReserved64to127 (BitVec.ofNat 6 t)
  else .filtReserved128to255 (BitVec.ofNat 7 t)

/-- PIXFMT: the pair (COLORTYPE, BITDEPTH) (R83, R263 to R278). -/
def decodePixfmt (ct bd : Byte) : Instr :=
  match ct.toNat, bd.toNat with
  | 0, 1 => .pixG1
  | 0, 2 => .pixG2
  | 0, 4 => .pixG4
  | 0, 8 => .pixG8
  | 0, 16 => .pixG16
  | 2, 8 => .pixRgb8
  | 2, 16 => .pixRgb16
  | 3, 1 => .pixI1
  | 3, 2 => .pixI2
  | 3, 4 => .pixI4
  | 3, 8 => .pixI8
  | 4, 8 => .pixGa8
  | 4, 16 => .pixGa16
  | 6, 8 => .pixRgba8
  | 6, 16 => .pixRgba16
  | _, _ => .pixOther ct bd

/-- CMD: the 3-bit command code (R88). -/
def decodeCmd (w : Nat) : Instr :=
  match w % 8 with
  | 0 => .cmdIllegal0
  | 1 => .reset
  | 2 => .commitHeader
  | 3 => .start
  | k => .cmdIllegal4to7 (BitVec.ofNat 2 k)

/-- ROWANS: the answer bit, 0 = continue, 1 = stop (R88). -/
def decodeRowans (w : Nat) : Instr := if w % 2 = 0 then .answerContinue else .answerStop

/-- The row of format `f` that the word `w` selects (R89), or the reason why there is none. -/
def decode (f : Format) (w : Nat) : Except Reject Instr :=
  if 2 ^ f.width ≤ w then .error (.tooWide f w)
  else
    match f with
    | .zhdr => .ok (decodeZhdr w)
    | .blkhdr => .ok (decodeBlkhdr w)
    | .stored => if w = 2 then .ok .storedHdr else if w = 3 then .ok .storedByte else .error (.noRow f w)
    | .dynhdr => if w = 4 then .ok .dynHdr else .error (.noRow f w)
    | .clsym => match clSymInstrs[w]? with | some i => .ok i | none => .error (.noRow f w)
    | .llsym =>
      if w < 256 then .ok (.lit (BitVec.ofNat 8 w))
      else match llSymInstrs[w - 256]? with | some i => .ok i | none => .error (.noRow f w)
    | .dsym => match dSymInstrs[w]? with | some i => .ok i | none => .error (.noRow f w)
    | .micro => if w = 7 then .ok .matchByte else if w = 8 then .ok .endStep else .error (.noRow f w)
    | .ftag => .ok (decodeFtag (BitVec.ofNat 8 w))
    | .pixfmt => .ok (decodePixfmt (BitVec.ofNat 8 (w / 256)) (BitVec.ofNat 8 w))
    | .cmd => .ok (decodeCmd w)
    | .rowans => .ok (decodeRowans w)

/-! ### Encoding: the format and the word of every row, from the opcode table -/

/-- The format and the word of an instruction (R89). -/
def encode (i : Instr) : Format × Nat :=
  match i with
  | .zhdr cmf flg => (.zhdr, flg.toNat * 256 + cmf.toNat)
  | .blkStored final => (.blkhdr, 0 + bitNat final)
  | .blkFixed final => (.blkhdr, 2 + bitNat final)
  | .blkDynamic final => (.blkhdr, 4 + bitNat final)
  | .blkReserved final => (.blkhdr, 6 + bitNat final)
  | .storedHdr => (.stored, 2)
  | .storedByte => (.stored, 3)
  | .dynHdr => (.dynhdr, 4)
  | .cl0 => (.clsym, 0)
  | .cl1 => (.clsym, 1)
  | .cl2 => (.clsym, 2)
  | .cl3 => (.clsym, 3)
  | .cl4 => (.clsym, 4)
  | .cl5 => (.clsym, 5)
  | .cl6 => (.clsym, 6)
  | .cl7 => (.clsym, 7)
  | .cl8 => (.clsym, 8)
  | .cl9 => (.clsym, 9)
  | .cl10 => (.clsym, 10)
  | .cl11 => (.clsym, 11)
  | .cl12 => (.clsym, 12)
  | .cl13 => (.clsym, 13)
  | .cl14 => (.clsym, 14)
  | .cl15 => (.clsym, 15)
  | .cl16 => (.clsym, 16)
  | .cl17 => (.clsym, 17)
  | .cl18 => (.clsym, 18)
  | .lit b => (.llsym, b.toNat)
  | .eob => (.llsym, 256)
  | .len257 => (.llsym, 257)
  | .len258 => (.llsym, 258)
  | .len259 => (.llsym, 259)
  | .len260 => (.llsym, 260)
  | .len261 => (.llsym, 261)
  | .len262 => (.llsym, 262)
  | .len263 => (.llsym, 263)
  | .len264 => (.llsym, 264)
  | .len265 => (.llsym, 265)
  | .len266 => (.llsym, 266)
  | .len267 => (.llsym, 267)
  | .len268 => (.llsym, 268)
  | .len269 => (.llsym, 269)
  | .len270 => (.llsym, 270)
  | .len271 => (.llsym, 271)
  | .len272 => (.llsym, 272)
  | .len273 => (.llsym, 273)
  | .len274 => (.llsym, 274)
  | .len275 => (.llsym, 275)
  | .len276 => (.llsym, 276)
  | .len277 => (.llsym, 277)
  | .len278 => (.llsym, 278)
  | .len279 => (.llsym, 279)
  | .len280 => (.llsym, 280)
  | .len281 => (.llsym, 281)
  | .len282 => (.llsym, 282)
  | .len283 => (.llsym, 283)
  | .len284 => (.llsym, 284)
  | .len285 => (.llsym, 285)
  | .ll286 => (.llsym, 286)
  | .ll287 => (.llsym, 287)
  | .dist0 => (.dsym, 0)
  | .dist1 => (.dsym, 1)
  | .dist2 => (.dsym, 2)
  | .dist3 => (.dsym, 3)
  | .dist4 => (.dsym, 4)
  | .dist5 => (.dsym, 5)
  | .dist6 => (.dsym, 6)
  | .dist7 => (.dsym, 7)
  | .dist8 => (.dsym, 8)
  | .dist9 => (.dsym, 9)
  | .dist10 => (.dsym, 10)
  | .dist11 => (.dsym, 11)
  | .dist12 => (.dsym, 12)
  | .dist13 => (.dsym, 13)
  | .dist14 => (.dsym, 14)
  | .dist15 => (.dsym, 15)
  | .dist16 => (.dsym, 16)
  | .dist17 => (.dsym, 17)
  | .dist18 => (.dsym, 18)
  | .dist19 => (.dsym, 19)
  | .dist20 => (.dsym, 20)
  | .dist21 => (.dsym, 21)
  | .dist22 => (.dsym, 22)
  | .dist23 => (.dsym, 23)
  | .dist24 => (.dsym, 24)
  | .dist25 => (.dsym, 25)
  | .dist26 => (.dsym, 26)
  | .dist27 => (.dsym, 27)
  | .dist28 => (.dsym, 28)
  | .dist29 => (.dsym, 29)
  | .dist30 => (.dsym, 30)
  | .dist31 => (.dsym, 31)
  | .matchByte => (.micro, 7)
  | .endStep => (.micro, 8)
  | .filtNone => (.ftag, 0)
  | .filtSub => (.ftag, 1)
  | .filtUp => (.ftag, 2)
  | .filtAvg => (.ftag, 3)
  | .filtPaeth => (.ftag, 4)
  | .filtReserved5 => (.ftag, 5)
  | .filtReserved6to7 low => (.ftag, 6 + low.toNat)
  | .filtReserved8to15 low => (.ftag, 8 + low.toNat)
  | .filtReserved16to31 low => (.ftag, 16 + low.toNat)
  | .filtReserved32to63 low => (.ftag, 32 + low.toNat)
  | .filtReserved64to127 low => (.ftag, 64 + low.toNat)
  | .filtReserved128to255 low => (.ftag, 128 + low.toNat)
  | .pixG1 => (.pixfmt, 1)
  | .pixG2 => (.pixfmt, 2)
  | .pixG4 => (.pixfmt, 4)
  | .pixG8 => (.pixfmt, 8)
  | .pixRgb8 => (.pixfmt, 520)
  | .pixI1 => (.pixfmt, 769)
  | .pixI2 => (.pixfmt, 770)
  | .pixI4 => (.pixfmt, 772)
  | .pixI8 => (.pixfmt, 776)
  | .pixGa8 => (.pixfmt, 1032)
  | .pixRgba8 => (.pixfmt, 1544)
  | .pixG16 => (.pixfmt, 16)
  | .pixRgb16 => (.pixfmt, 528)
  | .pixGa16 => (.pixfmt, 1040)
  | .pixRgba16 => (.pixfmt, 1552)
  | .pixOther ct bd => (.pixfmt, ct.toNat * 256 + bd.toNat)
  | .reset => (.cmd, 1)
  | .commitHeader => (.cmd, 2)
  | .start => (.cmd, 3)
  | .cmdIllegal0 => (.cmd, 0)
  | .cmdIllegal4to7 low => (.cmd, 4 + low.toNat)
  | .answerContinue => (.rowans, 0)
  | .answerStop => (.rowans, 1)

/-! ### The host's table words

A row's word does not say which format it is in: the machine knows the format from INF_STATE, RPHASE, the header or the port
(R70, R89). `decodeTableWord` is given a bare number, so it tries formats in one fixed order (log 3). -/

/-- Does the 16-bit word pass the checks of the zlib header (R100)? -/
def zhdrWordValid (w : Nat) : Bool :=
  w % 16 == 8 && w / 16 % 16 ≤ 7 && (w % 256 * 256 + w / 256) % 31 == 0 && w / 8192 % 2 == 0

/-- The formats tried for a bare word, in order (log 3). -/
def tableWordFormats (nbits w : Nat) : List Format :=
  if nbits = 0 then [.stored]
  else if nbits ≤ 8 then [.clsym, .dsym, .ftag]
  else if namedPixelPairs.contains (w / 256, w % 256) then [.pixfmt]
  else if 18 ≤ w && w ≤ 29 then [.dsym]
  else if zhdrWordValid w then [.zhdr]
  else [.llsym, .pixfmt]

/-- The first row that one of the formats gives for the word. -/
def firstRow (fs : List Format) (w : Nat) : Option Instr :=
  match fs with
  | [] => none
  | f :: rest => match decode f w with | .ok i => some i | .error _ => firstRow rest w

/-- The instruction the decoder reads from a bare table word of `nbits` bits (log 3). A word of no bits (the formats STORED,
DYNHDR and MICRO) is read as the first row of that kind, STORED_HDR. -/
def decodeTableWord (nbits w : Nat) : Option Instr :=
  if nbits = 0 then some .storedHdr else firstRow (tableWordFormats nbits w) w

/-! ### The bit layer of the compressed stream -/

/-- Stream bit number `k`: `CIN[k div 8][k mod 8]` (R41). Beyond the last byte there is no bit; the value there is never used
(`readBits` raises or waits first, R58). -/
def cinBit (cin : List Byte) (k : Nat) : Bool := (cin.getD (k / 8) 0).getLsbD (k % 8)

/-- The number that `ReadBits(n)` assembles at bit position `pos`: bit i of the result is stream bit `pos + i` (R42). -/
def bitsAt (cin : List Byte) (pos : Nat) : Nat → Nat
  | 0 => 0
  | n + 1 => bitNat (cinBit cin pos) + 2 * bitsAt cin (pos + 1) n

/-- How many symbols have code length `l` (`count[l]` of R130, R131). -/
def lengthCount (lens : List Nat) (l : Nat) : Nat := lens.count l

/-- `next[l]` of `CanonCodes` before any symbol is numbered: the first code of length `l` (R130). Length 0 counts no symbol
("count[0] = 0"). -/
def firstCode (lens : List Nat) : Nat → Nat
  | 0 => 0
  | l + 1 => (firstCode lens l + (if l = 0 then 0 else lengthCount lens l)) * 2

/-- `CODE[s]` of `CanonCodes` (R130): among codes of one length, codes are consecutive in order of increasing symbol number. -/
def canonCode (lens : List Nat) (s : Nat) : Nat :=
  firstCode lens (lens.getD s 0) + (lens.take s).count (lens.getD s 0)

/-- The symbols of code length `l` in increasing order. -/
def symbolsOfLength (lens : List Nat) (l : Nat) : List Nat :=
  (lens.zipIdx.filter (fun p => p.1 == l)).map Prod.snd

/-! ### Laying elements out as stream bits (R42, R44, R70, R81, R86, R87) -/

/-- A data field of `n` bits, least significant bit first (R42). -/
def fieldBits : (n v : Nat) → List Bool
  | 0, _ => []
  | n + 1, v => v.testBit 0 :: fieldBits n (v / 2)

/-- A Huffman code of `n` bits, most significant bit first (R44). -/
def codeBits : (n c : Nat) → List Bool
  | 0, _ => []
  | n + 1, c => c.testBit n :: codeBits n c

/-- The stream bits of symbol `s` in the code given by its lengths (R44, R130). -/
def symbolBits (lens : List Nat) (s : Nat) : List Bool := codeBits (lens.getD s 0) (canonCode lens s)

/-- Eight bits, first bit least significant, as a byte (R41); missing bits are 0. -/
def byteOfBits (bs : List Bool) : Byte :=
  BitVec.ofNat 8 ((List.range 8).foldr (fun k acc => bitNat (bs.getD k false) + 2 * acc) 0)

/-- `k` bytes of a bit string, the last ones padded with 0 bits (R41). -/
def packBytes : (k : Nat) → List Bool → List Byte
  | 0, _ => []
  | k + 1, bs => byteOfBits bs :: packBytes k (bs.drop 8)

/-- Base and number of extra bits of the length symbols 257 to 285 (R78). -/
def lengthTable : List (Nat × Nat) :=
  [(3, 0), (4, 0), (5, 0), (6, 0), (7, 0), (8, 0), (9, 0), (10, 0), (11, 1), (13, 1)]
    ++ [(15, 1), (17, 1), (19, 2), (23, 2), (27, 2), (31, 2), (35, 3), (43, 3), (51, 3), (59, 3)]
    ++ [(67, 4), (83, 4), (99, 4), (115, 4), (131, 5), (163, 5), (195, 5), (227, 5), (258, 0)]

/-- Base and number of extra bits of the distance symbols 0 to 29 (R79). -/
def distanceTable : List (Nat × Nat) :=
  [(1, 0), (2, 0), (3, 0), (4, 0), (5, 1), (7, 1), (9, 2), (13, 2), (17, 3), (25, 3)]
    ++ [(33, 4), (49, 4), (65, 5), (97, 5), (129, 6), (193, 6), (257, 7), (385, 7), (513, 8), (769, 8)]
    ++ [(1025, 9), (1537, 9), (2049, 10), (3073, 10), (4097, 11), (6145, 11), (8193, 12), (12289, 12), (16385, 13), (24577, 13)]

/-- The code lengths of the fixed literal/length code (R80). -/
def fixedLitLen (s : Nat) : Nat := if s < 144 then 8 else if s < 256 then 9 else if s < 280 then 7 else 8

/-- The fixed literal/length code as a list of 288 lengths (R80). -/
def fixedLitLens : List Nat := (List.range 288).map fixedLitLen

/-- The fixed distance code: 32 lengths of 5 (R80). -/
def fixedDistLens : List Nat := List.replicate 32 5

/-- `CL_ORDER` (R75). -/
def clOrder : List Nat := [16, 17, 18, 0, 8, 7, 9, 6, 10, 5, 11, 4, 12, 3, 13, 2, 14, 1, 15]

/-- The elements of a listing (R86), each with its operands. -/
inductive Element where
  | zhdr (cmf flg : Nat)
  | blk (final type : Nat)
  | stored (len nlen : Nat)
  | db (b : Nat)
  | dyn (hlit hdist hclen : Nat) (clls : List Nat)
  | cl (n : Nat)
  | cl16 (rep : Nat)
  | cl17 (rep : Nat)
  | cl18 (rep : Nat)
  | lit (b : Nat)
  | eob
  | len (s e : Nat)
  | dist (s e : Nat)
  deriving DecidableEq, Repr

/-- The stream bits of an element (R70) that starts at bit position `pos`, under the code lengths in force: `cl` for the
code-length code, `ll` for the literal/length code, `d` for the distance code. -/
def Element.bits (cl ll d : List Nat) (pos : Nat) (e : Element) : List Bool :=
  match e with
  | .zhdr cmf flg => fieldBits 8 cmf ++ fieldBits 8 flg
  | .blk final type => fieldBits 1 final ++ fieldBits 2 type
  | .stored l n => List.replicate ((8 - pos % 8) % 8) false ++ fieldBits 16 l ++ fieldBits 16 n
  | .db b => fieldBits 8 b
  | .dyn hlit hdist hclen clls =>
    fieldBits 5 hlit ++ fieldBits 5 hdist ++ fieldBits 4 hclen ++ (clls.map (fieldBits 3)).flatten
  | .cl n => symbolBits cl n
  | .cl16 rep => symbolBits cl 16 ++ fieldBits 2 (rep - 3)
  | .cl17 rep => symbolBits cl 17 ++ fieldBits 3 (rep - 3)
  | .cl18 rep => symbolBits cl 18 ++ fieldBits 7 (rep - 11)
  | .lit b => symbolBits ll b
  | .eob => symbolBits ll 256
  | .len s e => symbolBits ll s ++ fieldBits (lengthTable.getD (s - 257) (0, 0)).2 e
  | .dist s e => symbolBits d s ++ fieldBits (distanceTable.getD s (0, 0)).2 e

/-- The bits of a listing from bit position `pos` on, all under the same code lengths. -/
def listingBits (cl ll d : List Nat) (pos : Nat) (es : List Element) : List Bool :=
  match es with
  | [] => []
  | e :: rest => let bs := e.bits cl ll d pos; bs ++ listingBits cl ll d (pos + bs.length) rest

/-- `MATCH len, dist` (R87): the greatest length symbol whose base is ≤ len (285 for 258) and the greatest distance symbol
whose base is ≤ dist, each with its extra value. -/
def matchElements (len dist : Nat) : List Element :=
  let ls := if len = 258 then 28 else (lengthTable.take 28).countP (fun p => p.1 ≤ len) - 1
  let ds := distanceTable.countP (fun p => p.1 ≤ dist) - 1
  [.len (257 + ls) (len - (lengthTable.getD ls (0, 0)).1), .dist ds (dist - (distanceTable.getD ds (0, 0)).1)]

end Sys2Proof
end

