-- ==== Sys2Proof/Config.lean ====
section
/-! DEFINITION. What one implementation of PNGdec CORE fixes (00_scope R4, 70_reset R374) and the free values the spec leaves open (93 U3, U4). -/

namespace Sys2Proof

/-- The build-time parameters of rule R4. Each field's type is the parameter's domain, so no premise about a domain
is ever needed (R374). A `State` carries its own `Params` and no step writes them: a statement about every state is a
statement about every instantiation ("a model takes each as an argument", R4). -/
structure Params where
  /-- `WSIZE` = 2 ^ (8 + wsizeExp): a power of two, 256 to 32768 (R4, D7). -/
  wsizeExp : Fin 8
  /-- `MAX_STRIDE` − 1: any integer ≥ 1 (R4, D8). -/
  maxStrideLessOne : Nat
  /-- `IN_WINDOW_BYTES` − 4: any integer ≥ 4 (R4, D9). -/
  inWindowLessFour : Nat
  /-- `APPLY_COLOR_KEY` (R4, R262, D19). -/
  applyColorKey : Bool
  deriving DecidableEq, Repr

/-- `WSIZE`, the capacity in bytes of the sliding window (R4). -/
def Params.wsize (p : Params) : Nat := 2 ^ (8 + p.wsizeExp.val)

/-- `MAX_STRIDE`, the capacity in bytes of each row buffer (R4). -/
def Params.maxStride (p : Params) : Nat := p.maxStrideLessOne + 1

/-- `IN_WINDOW_BYTES`, the capacity of the bit reader's byte window (R4, R33). -/
def Params.inWindowBytes (p : Params) : Nat := p.inWindowLessFour + 4

/-- `MAX_STRIDE` − 1 of the core that `State.reset` is about: OPEN in R4, so a constant without a body. -/
opaque Config.maxStrideLessOne : Nat

/-- `IN_WINDOW_BYTES` − 4 of the core that `State.reset` is about: OPEN in R4, so a constant without a body. -/
opaque Config.inWindowLessFour : Nat

/-- `APPLY_COLOR_KEY` of the core that `State.reset` is about: OPEN in R4, so a constant without a body. -/
opaque Config.applyColorKey : Bool

/-- The parameters of the core that `State.reset` is about: WSIZE has the value R4 decides, 32768; the others are OPEN. -/
def Config.params : Params where
  wsizeExp := 7
  maxStrideLessOne := Config.maxStrideLessOne
  inWindowLessFour := Config.inWindowLessFour
  applyColorKey := Config.applyColorKey

/-- A FREE VALUE: the value of the piece of state number `i` after the free draw number `k`.
Used for every INF and FLT register and for the FLAGS read-out after a fatal error (R326, U3: "any value until RESET"). No body: nothing can be
proved about it. -/
opaque Config.freeValue : (k i : Nat) → Nat

/-- A FREE VALUE: entry `a` of the memory or register file number `i` after the free draw number `k` (R326, U3). -/
opaque Config.freeCell : (k i a : Nat) → Nat

/-- A FREE VALUE: how far the core pulls ahead at the free draw number `k` (R33, U4). -/
opaque Config.freePull : (k : Nat) → Nat

end Sys2Proof
end

