-- ==== Sys2Proof/Machine/State.lean ====
section
/-! DEFINITION. The architectural state of PNGdec CORE (10_state), its ports, the environment's pending actions, and the
state after reset (R39, R361). -/

namespace Sys2Proof.Machine

/-- INF_STATE (R13): the kind of stream element the next INF step executes. Values 9 to 15 are never written. -/
inductive InfState where
  | zhdr | blkhdr | storedHdr | storedByte | dynHdr | clSym | sym | matchByte | ended
  deriving DecidableEq, Repr

/-- DSTATE (R26): the driver's state. Values 5 to 7 are never written. -/
inductive DState where
  | uninit | headerReady | decoding | done | error
  deriving DecidableEq, Repr

/-- RPHASE (R22): whether the next decompressed byte is a filter tag or a data byte. -/
inductive Phase where
  | tag | data
  deriving DecidableEq, Repr

/-- The error codes of rule R320, values of ERRCODE and CMDSTAT. -/
inductive ErrCode where
  | success | invalidParameter | decodeError | memError | noBuffer | unsupportedFeature | invalidFile
  deriving DecidableEq, Repr

/-- The causes of rule R321, values of ERRCAUSE, in the rule's order. -/
inductive Cause where
  | noError | truncated | zlibHeader | blockType | storedNlen | dynCounts | huffOversubscribed | huffIncomplete | huffNocode
  | clRepeatNoprev | clRepeatOverrun | noEobCode | lengthSymbol | distanceSymbol | distanceTooFar | filterType
  | dataEndedEarly | header
  deriving DecidableEq, Repr

/-- A memory with cells of `w` bits: (address, value) pairs. Canonical form: addresses strictly rising and no value 0; an
unlisted address reads 0 (the reset value of every memory, R39). `Cells 8` is a list of `Host.Cell`. -/
abbrev Cells (w : Nat) := List (Nat × BitVec w)

/-- The registers of the inflate engine (10_state section 2). -/
structure Inf where
  /-- IPOS, the number of bits of CIN consumed (R12). -/
  ipos : BitVec 64
  /-- INF_STATE (R13). -/
  infState : InfState
  /-- BFINAL (R14). -/
  bfinal : Bool
  /-- BTYPE (R14). -/
  btype : BitVec 2
  /-- STORED_REM (R15). -/
  storedRem : BitVec 16
  /-- NLEN (R16). -/
  nlen : BitVec 9
  /-- NDIST (R16). -/
  ndist : BitVec 6
  /-- NCODE (R16). -/
  ncode : BitVec 5
  /-- CL_LEN[0..18] (R17). -/
  clLen : Vector (BitVec 3) 19
  /-- LENS[0..315] (R17). -/
  lens : Vector (BitVec 4) 316
  /-- LIDX (R17). -/
  lidx : BitVec 9
  /-- LL_LEN[0..287] (R18). -/
  llLen : Vector (BitVec 4) 288
  /-- D_LEN[0..31] (R18). -/
  dLen : Vector (BitVec 4) 32
  /-- MATCH_LEN (R19). -/
  matchLen : BitVec 9
  /-- MATCH_DIST (R19). -/
  matchDist : BitVec 16
  /-- WPOS (R20): log2(WSIZE) bits, so a number below WSIZE. -/
  wpos : Nat
  /-- HIST (R20): log2(WSIZE) + 1 bits, 0 to WSIZE. -/
  hist : Nat
  deriving DecidableEq, Repr

/-- The registers of the scanline reconstructor (10_state section 3). -/
structure Flt where
  /-- CURSEL (R21): which bank is the current row. -/
  cursel : Bool
  /-- FTYPE (R22). -/
  ftype : BitVec 3
  /-- RPHASE (R22). -/
  rphase : Phase
  /-- RX (R22): enough bits for 0 to MAX_STRIDE. -/
  rx : Nat
  /-- PASS (R23). -/
  pass : BitVec 3
  /-- PROW (R23). -/
  prow : BitVec 32
  /-- PW (R23). -/
  pw : BitVec 32
  /-- PH (R23). -/
  ph : BitVec 32
  /-- PSTRIDE (R23): as wide as RX. -/
  pstride : Nat
  deriving DecidableEq, Repr

/-- The registers of the pixel converter (10_state section 4); the palette itself is in `Memory`. -/
structure Pix where
  /-- PAL_COUNT (R24). -/
  palCount : BitVec 9
  /-- TRNS_VALID (R25). -/
  trnsValid : Bool
  /-- TRNS_INDEX (R25). -/
  trnsIndex : Byte
  /-- TRNS_GRAY (R25). -/
  trnsGray : BitVec 16
  /-- TRNS_R (R25). -/
  trnsR : BitVec 16
  /-- TRNS_G (R25). -/
  trnsG : BitVec 16
  /-- TRNS_B (R25). -/
  trnsB : BitVec 16
  deriving DecidableEq, Repr

/-- The control and status registers of the driver (10_state section 5). -/
structure Drv where
  /-- DSTATE (R26). -/
  dstate : DState
  /-- ERRCODE (R27). -/
  errcode : ErrCode
  /-- ERRCAUSE (R27). -/
  errcause : Cause
  /-- CMDSTAT (R27, R303). -/
  cmdstat : ErrCode
  /-- STOPPED (R28). -/
  stopped : Bool
  /-- ROW_PENDING (R28). -/
  rowPending : Bool
  /-- ROWCNT (R28). -/
  rowcnt : BitVec 32
  /-- WIDTH (R29). -/
  width : BitVec 32
  /-- HEIGHT (R29). -/
  height : BitVec 32
  /-- BITDEPTH (R29). -/
  bitdepth : Byte
  /-- COLORTYPE (R29). -/
  colortype : Byte
  /-- INTERLACE (R29). -/
  interlace : Byte
  /-- CTRL.RAWDEFLATE (R30), the one bit of CTRL that exists. -/
  rawDeflate : Bool
  deriving DecidableEq, Repr

/-- The memories (20_memory R40): the window, the two row buffers and the palette. -/
structure Memory where
  /-- WIN[0..WSIZE−1] (R20). -/
  win : Cells 8
  /-- ROWBUF[0][0..MAX_STRIDE−1] (R21). -/
  row0 : Cells 8
  /-- ROWBUF[1][0..MAX_STRIDE−1] (R21). -/
  row1 : Cells 8
  /-- PAL[0..255] (R24), entry = red in bits 23:16, green in 15:8, blue in 7:0. -/
  pal : Cells 24
  deriving DecidableEq, Repr

/-- The record's palette field (R36): a reference to PAL, PAL_COUNT and the transparency registers of this core, readable
through CFG while the record is pending (R280). There is only one palette to refer to. -/
inductive PaletteRef where
  | thisCore
  deriving DecidableEq, Repr

/-- The row record presented on ROUT (R36). -/
structure RowRecord where
  x : BitVec 32
  y : BitVec 32
  width : BitVec 32
  xstep : BitVec 4
  bpp : Byte
  pixtype : Byte
  palette : PaletteRef
  pixels : List Byte
  deriving DecidableEq, Repr

/-- One action of the environment (R10, R35): the host, the source or the row sink. -/
inductive EnvAct where
  /-- The hardware reset input (R360). -/
  | hwReset
  /-- CFG `write(offset, data32)` (R35); offset 0 is CMD. -/
  | cfgWrite (off : BitVec 11) (data : BitVec 32)
  /-- CFG `read(offset)` (R35). -/
  | cfgRead (off : BitVec 11)
  /-- The source makes the next byte of the compressed stream available (R35). -/
  | cinByte (b : Byte)
  /-- The source signals `cin_eos` (R35, R58). -/
  | cinEos
  /-- The row sink's answer bit: 0 = continue, 1 = stop (R88). -/
  | answer (bit : BitVec 1)
  deriving DecidableEq, Repr

/-- The ports' environment side and the actions still to come. -/
structure Env where
  /-- The bytes of CIN that the source has made available so far, first byte first (R11, log 4). -/
  cin : List Byte
  /-- The source has signalled the end of the stream (R58). -/
  cinEnd : Bool
  /-- PULLED (R33): how many of those bytes the core has pulled into its hidden window. -/
  pulled : Nat
  /-- The data of the last CFG read (R35), if one was made since reset. -/
  rdata : Option (BitVec 32)
  /-- The environment's actions still to come, each after so many enabled core steps (R305, log 5). Model's own. -/
  inputs : List (Nat × EnvAct)
  /-- The core has been reset since power-up (R39, U1, log 6). Model's own. -/
  beenReset : Bool
  deriving DecidableEq, Repr

/-- The whole state of one core and its ports. -/
structure State where
  /-- The build-time parameters (R4). No step writes them. -/
  params : Params
  inf : Inf
  flt : Flt
  pix : Pix
  drv : Drv
  mem : Memory
  /-- The row record presented and not yet answered (R36, R297). -/
  rout : Option RowRecord
  env : Env
  /-- How many free draws have been made (R326 U3, R33 U4, log 7). Model's own. -/
  freeCtr : Nat
  deriving DecidableEq, Repr

/-- Why no step is enabled and no environment action is queued: a hold of rule R373. A hold is not an error of the core; the
machine is stuck until the environment acts (U6, U7). All four are safe: the model stops where the hardware waits. -/
inductive Fault where
  /-- DSTATE is UNINIT or HEADER_READY: only a command can go on (R296, R373). Raised by `step`. Safe. -/
  | awaitHost
  /-- DSTATE is DONE or ERROR: only RESET can go on (R327, R373). Raised by `step`. Safe. -/
  | awaitReset
  /-- ROW_PENDING = 1 and the sink has not answered (R297, U7). Raised by `step`. Safe. -/
  | awaitSink
  /-- A step needs bits that the source has neither delivered nor declared absent (R58, U6). Raised by every meaning that
  reads the compressed stream, and by `step` while it reads a code. Safe. -/
  | awaitSource
  deriving DecidableEq, Repr

/-- Situations the spec gives no meaning (treatment `refuse` of 93_implementation_defined), and instructions without one. -/
inductive Refusal where
  /-- No meaning yet: raised by `exec`'s refused arms only. Safe. -/
  | notModelled (mnemonic : String)
  /-- Anything but RESET before the first reset (R39, U1). Raised by `step`. Safe. -/
  | beforeFirstReset
  /-- A CFG access that is not an aligned 32-bit word (R46 d, U10). Raised by `step`'s CFG accesses. Safe. -/
  | misalignedCfg
  /-- A compressed stream longer than 2^64 − 1 bits (R12, U9). Raised by the source's deliveries. Safe. -/
  | streamTooLong
  /-- A decoded number that names no row of the table. Raised by `step` and by the dispatches on a filter tag or a pixel
  format; no state reaches it, since every number they decode has a row. Safe. -/
  | noSuchRow
  deriving DecidableEq, Repr

/-- What a meaning and a step answer. -/
abbrev Result := Host.Outcome State Fault Refusal

/-- INF after reset: every register 0 (R39). -/
def Inf.reset : Inf where
  ipos := 0
  infState := .zhdr
  bfinal := false
  btype := 0
  storedRem := 0
  nlen := 0
  ndist := 0
  ncode := 0
  clLen := Vector.replicate 19 0
  lens := Vector.replicate 316 0
  lidx := 0
  llLen := Vector.replicate 288 0
  dLen := Vector.replicate 32 0
  matchLen := 0
  matchDist := 0
  wpos := 0
  hist := 0

/-- FLT after reset: every register 0 (R39). -/
def Flt.reset : Flt where
  cursel := false
  ftype := 0
  rphase := .tag
  rx := 0
  pass := 0
  prow := 0
  pw := 0
  ph := 0
  pstride := 0

/-- PIX after reset: every register 0 (R39). -/
def Pix.reset : Pix where
  palCount := 0
  trnsValid := false
  trnsIndex := 0
  trnsGray := 0
  trnsR := 0
  trnsG := 0
  trnsB := 0

/-- DRV after reset: every register 0 (R39). -/
def Drv.reset : Drv where
  dstate := .uninit
  errcode := .success
  errcause := .noError
  cmdstat := .success
  stopped := false
  rowPending := false
  rowcnt := 0
  width := 0
  height := 0
  bitdepth := 0
  colortype := 0
  interlace := 0
  rawDeflate := false

/-- Every memory all zero (R39): nothing listed. -/
def Memory.reset : Memory where
  win := []
  row0 := []
  row1 := []
  pal := []

/-- The ports after reset: no byte delivered, the hidden window empty (R39), nothing read, no action queued. -/
def Env.reset : Env where
  cin := []
  cinEnd := false
  pulled := 0
  rdata := none
  inputs := []
  beenReset := true

/-- The core right after RESET (R39, R361). -/
def State.reset : State where
  params := Config.params
  inf := Inf.reset
  flt := Flt.reset
  pix := Pix.reset
  drv := Drv.reset
  mem := Memory.reset
  rout := none
  env := Env.reset
  freeCtr := 0

end Sys2Proof.Machine
end

