-- ==== Sys2Proof/Machine/Ops.lean ====
section
/-! DEFINITION. The named operations over registers and memories, taking the one trap (R326) and leaving it (R291, R327). -/

namespace Sys2Proof.Machine

/-! ### Memories (20_memory R47) -/

/-- `MemRead` of one cell (R47): the value last written, or 0. -/
def Cells.read {w : Nat} (m : Cells w) (a : Nat) : BitVec w :=
  match m with
  | [] => 0
  | (k, v) :: rest => if k = a then v else Cells.read rest a

/-- Put a cell before the first cell of a higher address. -/
def Cells.insert {w : Nat} (m : Cells w) (a : Nat) (v : BitVec w) : Cells w :=
  match m with
  | [] => [(a, v)]
  | (k, u) :: rest => if a < k then (a, v) :: (k, u) :: rest else (k, u) :: Cells.insert rest a v

/-- `MemWrite` of one cell (R47), in canonical form: writing 0 leaves no entry. -/
def Cells.write {w : Nat} (m : Cells w) (a : Nat) (v : BitVec w) : Cells w :=
  let rest := m.filter (fun c => c.1 != a)
  if v = 0 then rest else Cells.insert rest a v

/-- The memory that holds `f a` at every address `a < n` and 0 elsewhere. -/
def Cells.ofFn {w : Nat} (n : Nat) (f : Nat → BitVec w) : Cells w :=
  (List.range n).filterMap (fun a => if f a = 0 then none else some (a, f a))

/-- Write 0 to the addresses 0 to n − 1. -/
def Cells.zeroBelow {w : Nat} (n : Nat) (m : Cells w) : Cells w := m.filter (fun c => decide (n ≤ c.1))

/-- The canonical form: addresses strictly rising, no value 0. -/
def Cells.wf {w : Nat} (m : Cells w) : Bool :=
  match m with
  | [] => true
  | (a, v) :: rest => v != 0 && rest.all (fun c => a < c.1) && Cells.wf rest

/-- Every listed address is below `n`. -/
def Cells.below {w : Nat} (n : Nat) (m : Cells w) : Bool := m.all (fun c => decide (c.1 < n))

/-- Every memory is in canonical form. -/
def Memory.wf (m : Memory) : Bool := m.win.wf && m.row0.wf && m.row1.wf && m.pal.wf

/-- No memory lists an address outside its space (R40, R52, R334). -/
def Memory.inBounds (p : Params) (m : Memory) : Bool :=
  m.win.below p.wsize && m.row0.below p.maxStride && m.row1.below p.maxStride && m.pal.below 256

/-- `ROWBUF[bank]`, bank 0 or 1 (R21). -/
def Memory.rowbuf (m : Memory) (bank : Bool) : Cells 8 := if bank then m.row1 else m.row0

/-- Replace `ROWBUF[bank]`. -/
def Memory.setRowbuf (m : Memory) (bank : Bool) (r : Cells 8) : Memory :=
  if bank then { m with row1 := r } else { m with row0 := r }

/-! ### Register groups -/

/-- Replace the INF registers. -/
def State.setInf (s : State) (r : Inf) : State := { s with inf := r }
/-- Replace the FLT registers. -/
def State.setFlt (s : State) (r : Flt) : State := { s with flt := r }
/-- Replace the PIX registers. -/
def State.setPix (s : State) (r : Pix) : State := { s with pix := r }
/-- Replace the DRV registers. -/
def State.setDrv (s : State) (r : Drv) : State := { s with drv := r }
/-- Replace the memories. -/
def State.setMem (s : State) (m : Memory) : State := { s with mem := m }
/-- Replace what ROUT presents. -/
def State.setRout (s : State) (r : Option RowRecord) : State := { s with rout := r }
/-- Replace the environment side. -/
def State.setEnv (s : State) (e : Env) : State := { s with env := e }

/-- The current row's bytes, `ROWBUF[CURSEL]` (R21). -/
def State.curRow (s : State) : Cells 8 := s.mem.rowbuf s.flt.cursel
/-- The previous row's bytes, `ROWBUF[1 − CURSEL]` (R21). -/
def State.prevRow (s : State) : Cells 8 := s.mem.rowbuf (!s.flt.cursel)
/-- Replace the current row's bytes. -/
def State.setCurRow (s : State) (r : Cells 8) : State := s.setMem (s.mem.setRowbuf s.flt.cursel r)
/-- Replace the previous row's bytes. -/
def State.setPrevRow (s : State) (r : Cells 8) : State := s.setMem (s.mem.setRowbuf (!s.flt.cursel) r)

/-- A register file of `n` entries given by a function. -/
def lengthFile {w : Nat} (n : Nat) (f : Nat → BitVec w) : Vector (BitVec w) n :=
  ⟨((List.range n).map f).toArray, by simp⟩

/-! ### Taking the trap (60_exceptions R326) -/

/-- INF_STATE from a number, taken modulo the nine names (R13). -/
def InfState.ofFree (n : Nat) : InfState :=
  match n % 9 with
  | 0 => .zhdr
  | 1 => .blkhdr
  | 2 => .storedHdr
  | 3 => .storedByte
  | 4 => .dynHdr
  | 5 => .clSym
  | 6 => .sym
  | 7 => .matchByte
  | _ => .ended

/-- Free values for every INF register, each within the register's width (R326, U3). -/
def freeInf (p : Params) (k : Nat) : Inf where
  ipos := BitVec.ofNat 64 (Config.freeValue k 0)
  infState := InfState.ofFree (Config.freeValue k 1)
  bfinal := (Config.freeValue k 2).testBit 0
  btype := BitVec.ofNat 2 (Config.freeValue k 3)
  storedRem := BitVec.ofNat 16 (Config.freeValue k 4)
  nlen := BitVec.ofNat 9 (Config.freeValue k 5)
  ndist := BitVec.ofNat 6 (Config.freeValue k 6)
  ncode := BitVec.ofNat 5 (Config.freeValue k 7)
  clLen := lengthFile 19 (fun a => BitVec.ofNat 3 (Config.freeCell k 0 a))
  lens := lengthFile 316 (fun a => BitVec.ofNat 4 (Config.freeCell k 1 a))
  lidx := BitVec.ofNat 9 (Config.freeValue k 8)
  llLen := lengthFile 288 (fun a => BitVec.ofNat 4 (Config.freeCell k 2 a))
  dLen := lengthFile 32 (fun a => BitVec.ofNat 4 (Config.freeCell k 3 a))
  matchLen := BitVec.ofNat 9 (Config.freeValue k 9)
  matchDist := BitVec.ofNat 16 (Config.freeValue k 10)
  wpos := Config.freeValue k 11 % p.wsize
  hist := Config.freeValue k 12 % (2 * p.wsize)

/-- Free values for every FLT register, each within the register's width (R326, U3). -/
def freeFlt (p : Params) (k : Nat) : Flt where
  cursel := (Config.freeValue k 13).testBit 0
  ftype := BitVec.ofNat 3 (Config.freeValue k 14)
  rphase := if (Config.freeValue k 15).testBit 0 then .data else .tag
  rx := Config.freeValue k 16 % (p.maxStride + 1)
  pass := BitVec.ofNat 3 (Config.freeValue k 17)
  prow := BitVec.ofNat 32 (Config.freeValue k 18)
  pw := BitVec.ofNat 32 (Config.freeValue k 19)
  ph := BitVec.ofNat 32 (Config.freeValue k 20)
  pstride := Config.freeValue k 21 % (p.maxStride + 1)

/-- Free contents for WIN and ROWBUF, which R326 counts among the INF and FLT registers; PAL keeps its contents. -/
def freeMem (p : Params) (k : Nat) (m : Memory) : Memory where
  win := Cells.ofFn p.wsize (fun a => BitVec.ofNat 8 (Config.freeCell k 4 a))
  row0 := Cells.ofFn p.maxStride (fun a => BitVec.ofNat 8 (Config.freeCell k 5 a))
  row1 := Cells.ofFn p.maxStride (fun a => BitVec.ofNat 8 (Config.freeCell k 6 a))
  pal := m.pal

/-- Trap entry (R326): DSTATE, ERRCODE, ERRCAUSE and ROW_PENDING are written; every INF and FLT register, WIN and ROWBUF
take free values; CMDSTAT, STOPPED, ROWCNT, the header registers, CTRL, PAL, PAL_COUNT and TRNS_* keep theirs. No record is
presented. -/
def trapEntry (code : ErrCode) (cause : Cause) (s : State) : State where
  params := s.params
  inf := freeInf s.params s.freeCtr
  flt := freeFlt s.params s.freeCtr
  pix := s.pix
  drv := { s.drv with dstate := .error, errcode := code, errcause := cause, rowPending := false }
  mem := freeMem s.params s.freeCtr s.mem
  rout := none
  env := s.env
  freeCtr := s.freeCtr + 1

/-- `raise DecodeError(cause)` (R320, R326). -/
def raiseDecode (cause : Cause) (s : State) : Result := .next (trapEntry .decodeError cause s)

/-- `raise Unsupported(HEADER)` with the CMDSTAT that R292 sets (R326, R292). -/
def raiseUnsupported (s : State) : Result :=
  let t := trapEntry .unsupportedFeature .header s
  .next (t.setDrv { t.drv with cmdstat := .unsupportedFeature })

/-- The only way out of ERROR and DONE (R291, R327, R360): every register, flag and memory takes its reset value, the
hidden window is emptied and the source starts the next stream from its first byte. What is not state of the core stays: its
parameters, the environment's actions still to come, and the count of free draws. -/
def resetCore (s : State) : State :=
  { State.reset with
    params := s.params
    env := { Env.reset with inputs := s.env.inputs }
    freeCtr := s.freeCtr }

/-! ### Steps that may stop half-way -/

/-- Why reading the compressed stream does not go on: the step raises a fatal error, or the bits it needs have not been
delivered and it is not enabled yet (R58). -/
inductive Stop where
  | raise (c : Cause)
  | starve
  deriving DecidableEq, Repr

/-- Go on with the value read; or take the trap; or wait for the source. A step is atomic (R6): on a trap what it wrote before
is replaced by free values, and a step that waits has written nothing. -/
def andThen {α : Type} (s : State) (r : Except Stop α) (k : α → Result) : Result :=
  match r with
  | .ok a => k a
  | .error (.raise c) => raiseDecode c s
  | .error .starve => .fault .awaitSource

end Sys2Proof.Machine
end

