-- ==== Sys2Proof/Machine/Operands.lean ====
section
/-! DEFINITION. Operand forms: bits and fields of the compressed stream (R42, R43), Huffman symbols (R130 to R134), code
tables (R80, R104), derived header quantities (R31), pass geometry (R234, R235) and samples of a row (R251 to R254, R262). -/

namespace Sys2Proof.Machine

/-! ### The bit reader (20_memory R42, R43, R58) -/

/-- At least `n` bits of the delivered stream remain at bit IPOS (R42, R58). -/
def hasBits (n : Nat) (s : State) : Bool := decide (s.inf.ipos.toNat + n ≤ 8 * s.env.cin.length)

/-- The number that the next `n` bits make, the first bit read its bit 0 (R42). -/
def nextBits (n : Nat) (s : State) : Nat := bitsAt s.env.cin s.inf.ipos.toNat n

/-- IPOS ← IPOS + n (R42). -/
def advance (n : Nat) (s : State) : State := s.setInf { s.inf with ipos := s.inf.ipos + BitVec.ofNat 64 n }

/-- `ReadBits(n)` (R42): raises TRUNCATED when fewer than `n` bits remain after the end of the stream; while the source has
neither delivered them nor signalled the end, the step is not enabled (R58). `ReadBits(0)` is 0 and cannot raise. -/
def readBits (n : Nat) (s : State) : Except Stop (Nat × State) :=
  if n = 0 ∨ hasBits n s = true then .ok (nextBits n s, advance n s)
  else .error (if s.env.cinEnd then .raise .truncated else .starve)

/-- `AlignByte()` (R43): IPOS rounded up to a multiple of 8. -/
def alignByte (s : State) : State :=
  s.setInf { s.inf with ipos := BitVec.ofNat 64 (divUp s.inf.ipos.toNat 8 * 8) }

/-! ### The Huffman decoder (41_huffman) -/

/-- `DecodeSym` in the search-free form of R133, after `fuel` more bits at most: `l` is the length being tried, `c` the code
read so far and `first` the first code of length `l − 1`, already advanced to length `l`. -/
def decodeSymFrom (lens : List Nat) (fuel l c first : Nat) (s : State) : Except Stop (Nat × State) :=
  match fuel with
  | 0 => .error (.raise .huffNocode)
  | fuel + 1 =>
    match readBits 1 s with
    | .error e => .error e
    | .ok (b, s1) =>
      let c1 := c * 2 + b
      match (symbolsOfLength lens l)[c1 - first]? with
      | some sym => .ok (sym, s1)
      | none => decodeSymFrom lens fuel (l + 1) c1 ((first + lengthCount lens l) * 2) s1

/-- `DecodeSym(LEN, n)` (R133): one code, bit by bit, at most 15 bits; then HUFF_NOCODE (R134). -/
def decodeSym (lens : List Nat) (s : State) : Except Stop (Nat × State) := decodeSymFrom lens 15 1 0 0 s

/-- `DecodeSym` as the pseudocode of R133 writes it, with its search over all symbols: the form `decodeSym` is equal to. -/
def decodeSymBySearchFrom (lens : List Nat) (fuel l c : Nat) (s : State) : Except Stop (Nat × State) :=
  match fuel with
  | 0 => .error (.raise .huffNocode)
  | fuel + 1 =>
    match readBits 1 s with
    | .error e => .error e
    | .ok (b, s1) =>
      let c1 := c * 2 + b
      match (List.range lens.length).find? (fun sym => lens.getD sym 0 == l && canonCode lens sym == c1) with
      | some sym => .ok (sym, s1)
      | none => decodeSymBySearchFrom lens fuel (l + 1) c1 s1

/-- Which code a table belongs to (R131). -/
inductive CodeKind where
  | cl | ll | d
  deriving DecidableEq, Repr

/-- `left` of R131 after the lengths 1 to `l`, or none once it has fallen below 0. -/
def codeSpaceLeft (lens : List Nat) : Nat → Option Nat
  | 0 => some 1
  | l + 1 =>
    match codeSpaceLeft lens l with
    | none => none
    | some left => if left * 2 < lengthCount lens (l + 1) then none else some (left * 2 - lengthCount lens (l + 1))

/-- The greatest code length in use, 0 if there is none (R131). -/
def maxLength (lens : List Nat) : Nat := lens.foldl max 0

/-- `CheckLengths(LEN, kind)` (R131). -/
def checkLengths (lens : List Nat) (kind : CodeKind) : Except Stop Unit :=
  if maxLength lens = 0 then .ok ()
  else
    match codeSpaceLeft lens 15 with
    | none => .error (.raise .huffOversubscribed)
    | some left =>
      if 0 < left ∧ (kind = .cl ∨ maxLength lens ≠ 1) then .error (.raise .huffIncomplete) else .ok ()

/-- A register file of code lengths as numbers. -/
def fileLens {w n : Nat} (v : Vector (BitVec w) n) : List Nat := v.toList.map BitVec.toNat

/-- The fixed literal/length code as the contents of LL_LEN (R80, R104). -/
def fixedLlLen : Vector (BitVec 4) 288 := lengthFile 288 (fun i => BitVec.ofNat 4 (fixedLitLen i))

/-- The fixed distance code as the contents of D_LEN (R80, R104). -/
def fixedDLen : Vector (BitVec 4) 32 := lengthFile 32 (fun _ => 5)

/-! ### Derived header quantities (10_state R31) -/

/-- `CH`: channels of a colour type (R31, R83). Numbers that are no colour type have none: such a header is refused before
any rule reads CH (R292). -/
def channels (ct : Byte) : Nat :=
  match ct.toNat with
  | 0 => 1
  | 2 => 3
  | 3 => 1
  | 4 => 2
  | 6 => 4
  | _ => 0

/-- `BPX`: bits per pixel (R31). -/
def Drv.bpx (d : Drv) : Nat := channels d.colortype * d.bitdepth.toNat

/-- `STRIDE(w)`, without overflow (R31). -/
def Drv.stride (d : Drv) (w : Nat) : Nat := divUp (d.bpx * w) 8

/-- `FBPP`: the filters' byte distance (R31, R223). -/
def Drv.fbpp (d : Drv) : Nat := max 1 (divUp d.bpx 8)

/-- The colour key is applied (R250, R262). -/
def State.keyApplied (s : State) : Bool := s.params.applyColorKey && s.pix.trnsValid

/-- `OCH`: output channels per pixel (R250). -/
def State.och (s : State) : Nat :=
  match s.drv.colortype.toNat with
  | 0 => if s.keyApplied then 2 else 1
  | 2 => if s.keyApplied then 4 else 3
  | 3 => if s.pix.trnsValid then 4 else 3
  | 4 => 2
  | 6 => 4
  | _ => 0

/-! ### Pass geometry (43_filters R234, R235) -/

/-- One row of the table of R234: first column, first row, column step, row step. -/
structure PassGeometry where
  xo : Nat
  yo : Nat
  xs : Nat
  ys : Nat
  deriving DecidableEq, Repr

/-- The table of R234. Pass 0 is the single pass of a non-interlaced image, passes 1 to 7 are Adam7's. -/
def passGeometry (q : Nat) : PassGeometry :=
  match q with
  | 0 => ⟨0, 0, 1, 1⟩
  | 1 => ⟨0, 0, 8, 8⟩
  | 2 => ⟨4, 0, 8, 8⟩
  | 3 => ⟨0, 4, 4, 8⟩
  | 4 => ⟨2, 0, 4, 4⟩
  | 5 => ⟨0, 2, 2, 4⟩
  | 6 => ⟨1, 0, 2, 2⟩
  | _ => ⟨0, 1, 1, 2⟩

/-- `PassDim(n, o, s)` (R235). -/
def passDim (n o s : Nat) : Nat := if o < n then divUp (n - o) s else 0

/-- Width in pixels of pass `q` (R233). -/
def passWidth (d : Drv) (q : Nat) : Nat := passDim d.width.toNat (passGeometry q).xo (passGeometry q).xs

/-- Height in rows of pass `q` (R233). -/
def passHeight (d : Drv) (q : Nat) : Nat := passDim d.height.toNat (passGeometry q).yo (passGeometry q).ys

/-- `NextPass(k)` (R235): the smallest q with k ≤ q ≤ 7 whose width and height are both non-zero. -/
def nextPass (d : Drv) (k : Nat) : Option Nat :=
  (List.range 8).find? (fun q => decide (k ≤ q) && passWidth d q != 0 && passHeight d q != 0)

/-! ### Samples (44_pixels R251 to R254, R262) -/

/-- `Unpack(row, i, d)` (R251) for d of 1, 2 or 4: the i-th sample, most significant bits first. -/
def unpack (row : Cells 8) (i d : Nat) : Byte :=
  ((row.read (i * d / 8)) >>> (8 - d - i * d % 8)) &&& BitVec.ofNat 8 (2 ^ d - 1)

/-- `ScaleGray(s, d)` (R252). -/
def scaleGray (s : Byte) (d : Nat) : Byte :=
  match d with
  | 1 => s * 255
  | 2 => s * 85
  | 4 => s * 17
  | _ => s

/-- `PalLookup(s)` (R253): red, green, blue of entry `s`. -/
def palLookup (m : Memory) (s : Byte) : List Byte :=
  let e := m.pal.read s.toNat
  [e.extractLsb' 16 8, e.extractLsb' 8 8, e.extractLsb' 0 8]

/-- The alpha byte of an indexed pixel, only when TRNS_VALID = 1 (R254). -/
def indexAlpha (x : Pix) (s : Byte) : List Byte :=
  if x.trnsValid then [if s = x.trnsIndex then 0 else 255] else []

/-- The key's alpha byte of a greyscale pixel with raw sample `s` (R262), only when the key is applied. -/
def grayAlpha (s : State) (v : Byte) : List Byte :=
  if s.keyApplied then [if v.setWidth 16 = s.pix.trnsGray then 0 else 255] else []

/-- The key's alpha byte of a truecolour pixel (R262), only when the key is applied. -/
def rgbAlpha (s : State) (r g b : Byte) : List Byte :=
  if s.keyApplied then
    [if r.setWidth 16 = s.pix.trnsR ∧ g.setWidth 16 = s.pix.trnsG ∧ b.setWidth 16 = s.pix.trnsB then 0 else 255]
  else []

end Sys2Proof.Machine
end

