-- ==== Sys2Proof/Machine/Flags.lean ====
section
/-! DEFINITION. Flags and status: the numbers of the named states (R13, R26, R320, R321), the FLAGS read-out (R32), the STAT
outputs (R35), and the one flag test of the inflate engine, `EndOfBlock` (R109). The core has no arithmetic flags (R37). -/

namespace Sys2Proof.Machine

/-- The number of INF_STATE (R13). -/
def InfState.code (x : InfState) : Nat :=
  match x with
  | .zhdr => 0
  | .blkhdr => 1
  | .storedHdr => 2
  | .storedByte => 3
  | .dynHdr => 4
  | .clSym => 5
  | .sym => 6
  | .matchByte => 7
  | .ended => 8

/-- The number of DSTATE (R26). -/
def DState.code (x : DState) : Nat :=
  match x with
  | .uninit => 0
  | .headerReady => 1
  | .decoding => 2
  | .done => 3
  | .error => 4

/-- The number of an error code (R320). -/
def ErrCode.code (x : ErrCode) : Nat :=
  match x with
  | .success => 0
  | .invalidParameter => 1
  | .decodeError => 2
  | .memError => 3
  | .noBuffer => 4
  | .unsupportedFeature => 5
  | .invalidFile => 6

/-- The number of a cause (R321). -/
def Cause.code (x : Cause) : Nat :=
  match x with
  | .noError => 0
  | .truncated => 1
  | .zlibHeader => 2
  | .blockType => 3
  | .storedNlen => 4
  | .dynCounts => 5
  | .huffOversubscribed => 6
  | .huffIncomplete => 7
  | .huffNocode => 8
  | .clRepeatNoprev => 9
  | .clRepeatOverrun => 10
  | .noEobCode => 11
  | .lengthSymbol => 12
  | .distanceSymbol => 13
  | .distanceTooFar => 14
  | .filterType => 15
  | .dataEndedEarly => 16
  | .header => 17

/-- The FLAGS read-out of a core that is not in ERROR (R32): bit 0 BFINAL, bit 1 STOPPED, bit 2 ROW_PENDING, bits 4:3 BTYPE,
bits 11:8 INF_STATE, bits 14:12 PASS. -/
def State.flagBits (s : State) : BitVec 32 :=
  BitVec.ofNat 32
    (bitNat s.inf.bfinal + 2 * bitNat s.drv.stopped + 4 * bitNat s.drv.rowPending + 8 * s.inf.btype.toNat
      + 256 * s.inf.infState.code + 4096 * s.flt.pass.toNat)

/-- The FLAGS read-out. After a fatal error the whole read-out is unspecified until RESET, STOPPED's and the unused bits too
(R326, U3): a free value of 32 bits. -/
def State.flags (s : State) : BitVec 32 :=
  if s.drv.dstate = .error then BitVec.ofNat 32 (Config.freeValue s.freeCtr 22) else s.flagBits

/-- STAT output `busy` (R35). -/
def State.busy (s : State) : Bool := s.drv.dstate == .decoding
/-- STAT output `done` (R35). -/
def State.doneOut (s : State) : Bool := s.drv.dstate == .done
/-- STAT output `error` (R35). -/
def State.errorOut (s : State) : Bool := s.drv.dstate == .error

/-- `EndOfBlock()` (R109): the only reader of BFINAL. -/
def endOfBlock (s : State) : State :=
  s.setInf { s.inf with infState := if s.inf.bfinal then .ended else .blkhdr }

end Sys2Proof.Machine
end

