-- ==== Sys2Proof/Machine/Pixels.lean ====
section
/-! DEFINITION. The pixel converter (44_pixels): one meaning per pixel format. A converted format turns the reconstructed
current row into the row record and presents it (R255, R280, R297); a refused format is what COMMIT_HEADER runs into (R274 to
R278). -/

namespace Sys2Proof.Machine

/-- `ROW_PENDING ← 1`, `ROWCNT ← ROWCNT + 1` and the record of R280 on ROUT (R36, R223, R236, R297): `px i` are the delivered
bytes of pixel i (R255). -/
def presentRow (px : Nat → List Byte) (s : State) : Result :=
  let g := passGeometry s.flt.pass.toNat
  let r : RowRecord :=
    { x := BitVec.ofNat 32 g.xo
      y := BitVec.ofNat 32 (g.yo + s.flt.prow.toNat * g.ys)
      width := s.flt.pw
      xstep := BitVec.ofNat 4 g.xs
      bpp := BitVec.ofNat 8 (8 * s.och)
      pixtype := s.drv.colortype
      palette := .thisCore
      pixels := (List.range s.flt.pw.toNat).flatMap px }
  .next ((s.setRout (some r)).setDrv { s.drv with rowPending := true, rowcnt := s.drv.rowcnt + 1 })

/-- The i-th sample of the current row at depth `d` (R251: at depth 8 the sample is `row[i]`). -/
def State.sample (s : State) (i d : Nat) : Byte := if d = 8 then s.curRow.read i else unpack s.curRow i d

/-- Pixel `i` of a greyscale row of depth `d` (R263 to R266). -/
def grayPixel (s : State) (d i : Nat) : List Byte := scaleGray (s.sample i d) d :: grayAlpha s (s.sample i d)

/-- Pixel `i` of an indexed row of depth `d` (R268 to R271). -/
def indexedPixel (s : State) (d i : Nat) : List Byte := palLookup s.mem (s.sample i d) ++ indexAlpha s.pix (s.sample i d)

/-- Pixel `i` of an 8-bit truecolour row (R267). -/
def rgbPixel (s : State) (i : Nat) : List Byte :=
  let r := s.curRow.read (3 * i)
  let g := s.curRow.read (3 * i + 1)
  let b := s.curRow.read (3 * i + 2)
  [r, g, b] ++ rgbAlpha s r g b

/-- Pixel `i` of an 8-bit greyscale row with alpha (R272). -/
def grayAlphaPixel (s : State) (i : Nat) : List Byte := [s.curRow.read (2 * i), s.curRow.read (2 * i + 1)]

/-- Pixel `i` of an 8-bit truecolour row with alpha (R273). -/
def rgbaPixel (s : State) (i : Nat) : List Byte :=
  [s.curRow.read (4 * i), s.curRow.read (4 * i + 1), s.curRow.read (4 * i + 2), s.curRow.read (4 * i + 3)]

/-- PIX_G1 (R263): convert and present the current row. -/
def execPixG1 (s : State) : Result := presentRow (grayPixel s 1) s

/-- PIX_G2 (R264): convert and present the current row. -/
def execPixG2 (s : State) : Result := presentRow (grayPixel s 2) s

/-- PIX_G4 (R265): convert and present the current row. -/
def execPixG4 (s : State) : Result := presentRow (grayPixel s 4) s

/-- PIX_G8 (R266): convert and present the current row. -/
def execPixG8 (s : State) : Result := presentRow (grayPixel s 8) s

/-- PIX_RGB8 (R267): convert and present the current row. -/
def execPixRgb8 (s : State) : Result := presentRow (rgbPixel s) s

/-- PIX_I1 (R268): convert and present the current row. -/
def execPixI1 (s : State) : Result := presentRow (indexedPixel s 1) s

/-- PIX_I2 (R269): convert and present the current row. -/
def execPixI2 (s : State) : Result := presentRow (indexedPixel s 2) s

/-- PIX_I4 (R270): convert and present the current row. -/
def execPixI4 (s : State) : Result := presentRow (indexedPixel s 4) s

/-- PIX_I8 (R271): convert and present the current row. -/
def execPixI8 (s : State) : Result := presentRow (indexedPixel s 8) s

/-- PIX_GA8 (R272): convert and present the current row. -/
def execPixGa8 (s : State) : Result := presentRow (grayAlphaPixel s) s

/-- PIX_RGBA8 (R273): convert and present the current row. -/
def execPixRgba8 (s : State) : Result := presentRow (rgbaPixel s) s

/-- PIX_G16 (R274): not converted; the header is refused with Unsupported(HEADER) (R292, R326). -/
def execPixG16 (s : State) : Result := raiseUnsupported s

/-- PIX_RGB16 (R275): not converted; the header is refused with Unsupported(HEADER) (R292, R326). -/
def execPixRgb16 (s : State) : Result := raiseUnsupported s

/-- PIX_GA16 (R276): not converted; the header is refused with Unsupported(HEADER) (R292, R326). -/
def execPixGa16 (s : State) : Result := raiseUnsupported s

/-- PIX_RGBA16 (R277): not converted; the header is refused with Unsupported(HEADER) (R292, R326). -/
def execPixRgba16 (s : State) : Result := raiseUnsupported s

/-- PIX_OTHER (R278): every other pair is refused the same way. -/
def execPixOther (_ct _bd : Byte) (s : State) : Result := raiseUnsupported s

/-- Run the pixel format of the image (R280): the row that the pair (COLORTYPE, BITDEPTH) decodes to. -/
def runPixel (i : Instr) (s : State) : Result :=
  match i with
  | .pixG1 => execPixG1 s
  | .pixG2 => execPixG2 s
  | .pixG4 => execPixG4 s
  | .pixG8 => execPixG8 s
  | .pixRgb8 => execPixRgb8 s
  | .pixI1 => execPixI1 s
  | .pixI2 => execPixI2 s
  | .pixI4 => execPixI4 s
  | .pixI8 => execPixI8 s
  | .pixGa8 => execPixGa8 s
  | .pixRgba8 => execPixRgba8 s
  | .pixG16 => execPixG16 s
  | .pixRgb16 => execPixRgb16 s
  | .pixGa16 => execPixGa16 s
  | .pixRgba16 => execPixRgba16 s
  | .pixOther ct bd => execPixOther ct bd s
  | _ => .refused .noSuchRow

end Sys2Proof.Machine
end

