-- ==== Sys2Proof/Machine/Filters.lean ====
section
/-! DEFINITION. The scanline reconstructor (43_filters): one meaning per filter tag, reconstruction of a row, and `Emit`, which
hands every decompressed byte to it (42_symbols R140). -/

namespace Sys2Proof.Machine

/-- `PaethPredictor(a, b, c)` (R231), exact on integers. -/
def paeth (a b c : Byte) : Byte :=
  let p : Int := (a.toNat : Int) + b.toNat - c.toNat
  let pa := (p - a.toNat).natAbs
  let pb := (p - b.toNat).natAbs
  let pc := (p - c.toNat).natAbs
  if pa ≤ pb ∧ pa ≤ pc then a else if pb ≤ pc then b else c

/-- `Pred(FTYPE, a, b, c)` (R224 to R228). FTYPE is 0 to 4 (R22); the register's values 5 to 7 are never written outside a
trap, and no row is reconstructed after one (log 13). -/
def pred (ftype : BitVec 3) (a b c : Byte) : Byte :=
  match ftype.toNat with
  | 1 => a
  | 2 => b
  | 3 => BitVec.ofNat 8 ((a.toNat + b.toNat) / 2)
  | 4 => paeth a b c
  | _ => 0

/-- The predictor of byte `x`, from the already reconstructed left neighbours in `cur` and the previous row (R223). -/
def predAt (ftype : BitVec 3) (fbpp : Nat) (prev cur : Cells 8) (x : Nat) : Byte :=
  let a := if fbpp ≤ x then cur.read (x - fbpp) else 0
  let b := prev.read x
  let c := if fbpp ≤ x then prev.read (x - fbpp) else 0
  pred ftype a b c

/-- The bytes 0 to n − 1 of the row reconstructed, left to right, in place (the loop of R223). The sum is modulo 256 (R230). -/
def reconstruct (ftype : BitVec 3) (fbpp : Nat) (prev : Cells 8) (n : Nat) (cur : Cells 8) : Cells 8 :=
  match n with
  | 0 => cur
  | x + 1 =>
    let done := reconstruct ftype fbpp prev x cur
    done.write x (done.read x + predAt ftype fbpp prev done x)

/-- `RowComplete()` (R223): reverse the filter over the row, then convert and present it (R280). -/
def rowComplete (s : State) : Result :=
  let row := reconstruct s.flt.ftype s.drv.fbpp s.prevRow s.flt.pstride s.curRow
  runPixel (decodePixfmt s.drv.colortype s.drv.bitdepth) (s.setCurRow row)

/-- A legal tag is received (R221): the row's filter is set and its data follows. -/
def acceptTag (t : BitVec 3) (s : State) : Result :=
  .next (s.setFlt { s.flt with ftype := t, rphase := .data, rx := 0 })

/-- FILT_NONE (R224, R221): the row that starts here is reconstructed with Pred(0, a, b, c). -/
def execFiltNone (s : State) : Result := acceptTag 0 s

/-- FILT_SUB (R225, R221): the row that starts here is reconstructed with Pred(1, a, b, c). -/
def execFiltSub (s : State) : Result := acceptTag 1 s

/-- FILT_UP (R226, R221): the row that starts here is reconstructed with Pred(2, a, b, c). -/
def execFiltUp (s : State) : Result := acceptTag 2 s

/-- FILT_AVG (R227, R221): the row that starts here is reconstructed with Pred(3, a, b, c). -/
def execFiltAvg (s : State) : Result := acceptTag 3 s

/-- FILT_PAETH (R228, R221): the row that starts here is reconstructed with Pred(4, a, b, c). -/
def execFiltPaeth (s : State) : Result := acceptTag 4 s

/-- FILT_RESERVED_5 (R229): `raise DecodeError(FILTER_TYPE)`. -/
def execFiltReserved5 (s : State) : Result := raiseDecode .filterType s

/-- FILT_RESERVED_6_7 (R229): `raise DecodeError(FILTER_TYPE)`. -/
def execFiltReserved6to7 (_low : BitVec 1) (s : State) : Result := raiseDecode .filterType s

/-- FILT_RESERVED_8_15 (R229): `raise DecodeError(FILTER_TYPE)`. -/
def execFiltReserved8to15 (_low : BitVec 3) (s : State) : Result := raiseDecode .filterType s

/-- FILT_RESERVED_16_31 (R229): `raise DecodeError(FILTER_TYPE)`. -/
def execFiltReserved16to31 (_low : BitVec 4) (s : State) : Result := raiseDecode .filterType s

/-- FILT_RESERVED_32_63 (R229): `raise DecodeError(FILTER_TYPE)`. -/
def execFiltReserved32to63 (_low : BitVec 5) (s : State) : Result := raiseDecode .filterType s

/-- FILT_RESERVED_64_127 (R229): `raise DecodeError(FILTER_TYPE)`. -/
def execFiltReserved64to127 (_low : BitVec 6) (s : State) : Result := raiseDecode .filterType s

/-- FILT_RESERVED_128_255 (R229): `raise DecodeError(FILTER_TYPE)`. -/
def execFiltReserved128to255 (_low : BitVec 7) (s : State) : Result := raiseDecode .filterType s

/-- Run the filter tag just received (R221, R229): the row its byte decodes to. -/
def runTag (i : Instr) (s : State) : Result :=
  match i with
  | .filtNone => execFiltNone s
  | .filtSub => execFiltSub s
  | .filtUp => execFiltUp s
  | .filtAvg => execFiltAvg s
  | .filtPaeth => execFiltPaeth s
  | .filtReserved5 => execFiltReserved5 s
  | .filtReserved6to7 low => execFiltReserved6to7 low s
  | .filtReserved8to15 low => execFiltReserved8to15 low s
  | .filtReserved16to31 low => execFiltReserved16to31 low s
  | .filtReserved32to63 low => execFiltReserved32to63 low s
  | .filtReserved64to127 low => execFiltReserved64to127 low s
  | .filtReserved128to255 low => execFiltReserved128to255 low s
  | _ => .refused .noSuchRow

/-- `FltPush(b)`, data phase (R222). -/
def fltData (b : Byte) (s : State) : Result :=
  let s1 := (s.setCurRow (s.curRow.write s.flt.rx b)).setFlt { s.flt with rx := s.flt.rx + 1 }
  if s.flt.rx + 1 = s.flt.pstride then rowComplete s1 else .next s1

/-- `FltPush(b)` (R221, R222). -/
def fltPush (b : Byte) (s : State) : Result :=
  match s.flt.rphase with
  | .tag => runTag (decodeFtag b) s
  | .data => fltData b s

/-- The window part of `Emit(b)` (R140): the byte enters the dictionary. -/
def windowPush (b : Byte) (s : State) : State :=
  (s.setMem { s.mem with win := s.mem.win.write s.inf.wpos b }).setInf
    { s.inf with wpos := (s.inf.wpos + 1) % s.params.wsize, hist := min (s.inf.hist + 1) s.params.wsize }

/-- `Emit(b)` (R140): append byte b to the decompressed stream. -/
def emit (b : Byte) (s : State) : Result := fltPush b (windowPush b s)

/-- `StartPass(q)` (R233). Nothing of INF is touched. -/
def startPass (q : Nat) (s : State) : State :=
  (s.setPrevRow (s.prevRow.zeroBelow s.params.maxStride)).setFlt
    { s.flt with
      pass := BitVec.ofNat 3 q
      pw := BitVec.ofNat 32 (passWidth s.drv q)
      ph := BitVec.ofNat 32 (passHeight s.drv q)
      pstride := s.drv.stride (passWidth s.drv q)
      prow := 0
      rphase := .tag
      rx := 0 }

/-- `RowAdvance()` (R232): swap the buffers' roles; after the last row of the pass go to the next pass that has pixels, or end
the decode (R300). -/
def rowAdvance (s : State) : State :=
  let s1 := s.setFlt
    { s.flt with cursel := !s.flt.cursel, rphase := .tag, rx := 0, prow := s.flt.prow + 1 }
  if s.flt.prow + 1 = s.flt.ph then
    match if s.drv.interlace = 1 then nextPass s.drv (s.flt.pass.toNat + 1) else none with
    | none => s1.setDrv { s.drv with dstate := .done }
    | some q => startPass q s1
  else s1

end Sys2Proof.Machine
end

