-- ==== Sys2Proof/Machine/Blocks.lean ====
section
/-! DEFINITION. Stream header, block headers, stored blocks and dynamic code tables (40_blocks). -/

namespace Sys2Proof.Machine

/-- ZHDR (R100): the checks of the zlib header, in the rule's order. The 16 bits have been read. -/
def execZhdr (cmf flg : Byte) (s : State) : Result :=
  if cmf.toNat % 16 ≠ 8 then raiseDecode .zlibHeader s
  else if 7 < cmf.toNat / 16 then raiseDecode .zlibHeader s
  else if (cmf.toNat * 256 + flg.toNat) % 31 ≠ 0 then raiseDecode .zlibHeader s
  else if flg.getLsbD 5 then raiseDecode .zlibHeader s
  else .next (s.setInf { s.inf with infState := .blkhdr })

/-- BLK_STORED (R101). The three bits have been read. -/
def execBlkStored (final : Bool) (s : State) : Result :=
  .next (s.setInf { s.inf with bfinal := final, btype := 0, infState := .storedHdr })

/-- BLK_FIXED (R101, R104): load the fixed tables. -/
def execBlkFixed (final : Bool) (s : State) : Result :=
  .next (s.setInf
    { s.inf with bfinal := final, btype := 1, llLen := fixedLlLen, dLen := fixedDLen, infState := .sym })

/-- BLK_DYNAMIC (R101). -/
def execBlkDynamic (final : Bool) (s : State) : Result :=
  .next (s.setInf { s.inf with bfinal := final, btype := 2, infState := .dynHdr })

/-- BLK_RESERVED (R106): the writes of BFINAL and BTYPE are moot, trap entry follows. -/
def execBlkReserved (_final : Bool) (s : State) : Result := raiseDecode .blockType s

/-- The reading part of STORED_HDR (R102): align, LEN, NLEN, and the complement check. -/
def readStoredHdr (s : State) : Except Stop (Nat × State) := do
  let (len, s1) ← readBits 16 (alignByte s)
  let (nlen, s2) ← readBits 16 s1
  if len ≠ nlen ^^^ 0xFFFF then .error (.raise .storedNlen) else .ok (len, s2)

/-- STORED_HDR (R102). -/
def execStoredHdr (s : State) : Result :=
  andThen s (readStoredHdr s) fun (len, s1) =>
    let s2 := s1.setInf { s1.inf with storedRem := BitVec.ofNat 16 len }
    .next (if len = 0 then endOfBlock s2 else s2.setInf { s2.inf with infState := .storedByte })

/-- STORED_BYTE (R103). -/
def execStoredByte (s : State) : Result :=
  andThen s (readBits 8 s) fun (b, s1) =>
    let s2 := s1.setInf { s1.inf with storedRem := s1.inf.storedRem - 1 }
    emit (BitVec.ofNat 8 b) (if s2.inf.storedRem = 0 then endOfBlock s2 else s2)

/-- The CLL fields of a dynamic header (R105, R75): one 3-bit length for each symbol of `order`. -/
def readClls (order : List Nat) (file : Vector (BitVec 3) 19) (s : State) :
    Except Stop (Vector (BitVec 3) 19 × State) :=
  match order with
  | [] => .ok (file, s)
  | sym :: rest =>
    match readBits 3 s with
    | .error e => .error e
    | .ok (v, s1) => readClls rest (file.setIfInBounds sym (BitVec.ofNat 3 v)) s1

/-- The step DYN_HDR (R105) up to its last check. -/
def readDynHdr (s : State) : Except Stop State := do
  let (hlit, s1) ← readBits 5 s
  let (hdist, s2) ← readBits 5 s1
  let (hclen, s3) ← readBits 4 s2
  if 286 < hlit + 257 ∨ 30 < hdist + 1 then .error (.raise .dynCounts)
  else do
    let (file, s4) ← readClls (clOrder.take (hclen + 4)) (Vector.replicate 19 0) s3
    checkLengths (fileLens file) .cl
    .ok (s4.setInf
      { s4.inf with
        nlen := BitVec.ofNat 9 (hlit + 257)
        ndist := BitVec.ofNat 6 (hdist + 1)
        ncode := BitVec.ofNat 5 (hclen + 4)
        clLen := file
        lens := Vector.replicate 316 0
        lidx := 0
        infState := .clSym })

/-- DYN_HDR (R105). -/
def execDynHdr (s : State) : Result := andThen s (readDynHdr s) fun s1 => .next s1

/-- Entries `start` to `start + n − 1` of a sequence of code lengths, then zeros (R108). -/
def lensSlice (lens : Vector (BitVec 4) 316) (start n size : Nat) : Vector (BitVec 4) size :=
  lengthFile size (fun i => if i < n then lens.toList.getD (start + i) 0 else 0)

/-- Completion of the dynamic tables (R108), the checks in the order written. -/
def completeTables (s : State) : Result :=
  let ll := lensSlice s.inf.lens 0 s.inf.nlen.toNat 288
  let d := lensSlice s.inf.lens s.inf.nlen.toNat s.inf.ndist.toNat 32
  if s.inf.lens.toList.getD 256 0 = 0 then raiseDecode .noEobCode s
  else
    andThen s (checkLengths (fileLens ll) .ll) fun _ =>
      andThen s (checkLengths (fileLens d) .d) fun _ =>
        .next (s.setInf { s.inf with llLen := ll, dLen := d, infState := .sym })

/-- `NLEN + NDIST` (R107). -/
def Inf.lensTotal (r : Inf) : Nat := r.nlen.toNat + r.ndist.toNat

/-- "repeat rep times: LENS[LIDX] <- v ; LIDX <- LIDX + 1" (R110 to R113). -/
def appendLens (rep : Nat) (v : BitVec 4) (s : State) : State :=
  match rep with
  | 0 => s
  | n + 1 =>
    appendLens n v (s.setInf
      { s.inf with lens := s.inf.lens.setIfInBounds s.inf.lidx.toNat v, lidx := s.inf.lidx + 1 })

/-- The end of every CL_SYM step (R107): when the sequence is complete, the tables are (R108). -/
def clDone (s : State) : Result := if s.inf.lidx.toNat = s.inf.lensTotal then completeTables s else .next s

/-- The code-length symbols 0 to 15 (R110): one code length `n`. -/
def clLiteral (n : BitVec 4) (s : State) : Result := clDone (appendLens 1 n s)

/-- A repeat of `v`, `base` plus an extra field of `n` bits times (R111 to R113). -/
def clRepeat (base n : Nat) (v : BitVec 4) (s : State) : Result :=
  andThen s (readBits n s) fun (e, s1) =>
    if s1.inf.lensTotal < s1.inf.lidx.toNat + (base + e) then raiseDecode .clRepeatOverrun s1
    else clDone (appendLens (base + e) v s1)

/-- CL0 (R110). -/
def execCl0 (s : State) : Result := clLiteral 0 s

/-- CL1 (R110). -/
def execCl1 (s : State) : Result := clLiteral 1 s

/-- CL2 (R110). -/
def execCl2 (s : State) : Result := clLiteral 2 s

/-- CL3 (R110). -/
def execCl3 (s : State) : Result := clLiteral 3 s

/-- CL4 (R110). -/
def execCl4 (s : State) : Result := clLiteral 4 s

/-- CL5 (R110). -/
def execCl5 (s : State) : Result := clLiteral 5 s

/-- CL6 (R110). -/
def execCl6 (s : State) : Result := clLiteral 6 s

/-- CL7 (R110). -/
def execCl7 (s : State) : Result := clLiteral 7 s

/-- CL8 (R110). -/
def execCl8 (s : State) : Result := clLiteral 8 s

/-- CL9 (R110). -/
def execCl9 (s : State) : Result := clLiteral 9 s

/-- CL10 (R110). -/
def execCl10 (s : State) : Result := clLiteral 10 s

/-- CL11 (R110). -/
def execCl11 (s : State) : Result := clLiteral 11 s

/-- CL12 (R110). -/
def execCl12 (s : State) : Result := clLiteral 12 s

/-- CL13 (R110). -/
def execCl13 (s : State) : Result := clLiteral 13 s

/-- CL14 (R110). -/
def execCl14 (s : State) : Result := clLiteral 14 s

/-- CL15 (R110). -/
def execCl15 (s : State) : Result := clLiteral 15 s

/-- CL16 (R111): repeat the previous length; with no previous length it raises before the extra bits are read. -/
def execCl16 (s : State) : Result :=
  if s.inf.lidx = 0 then raiseDecode .clRepeatNoprev s
  else clRepeat 3 2 (s.inf.lens.toList.getD (s.inf.lidx.toNat - 1) 0) s

/-- CL17 (R112): repeat zero, short. -/
def execCl17 (s : State) : Result := clRepeat 3 3 0 s

/-- CL18 (R113): repeat zero, long. -/
def execCl18 (s : State) : Result := clRepeat 11 7 0 s

end Sys2Proof.Machine
end

