-- ==== Sys2Proof/Machine/Symbols.lean ====
section
/-! DEFINITION. Literal/length and distance symbols and the LZ77 dictionary (42_symbols). The code of a symbol has been read;
its extra field has not. -/

namespace Sys2Proof.Machine

/-- LIT b (R142): `Emit(b)`. -/
def execLit (b : Byte) (s : State) : Result := emit b s

/-- EOB (R143): `EndOfBlock()`. -/
def execEob (s : State) : Result := .next (endOfBlock s)

/-- A length symbol (R141, R145): the match length is `base` plus an extra field of `n` bits. The step goes on with the
distance symbol. -/
def lengthSymbol (base n : Nat) (s : State) : Result :=
  andThen s (readBits n s) fun (e, s1) =>
    .next (s1.setInf { s1.inf with matchLen := BitVec.ofNat 9 (base + e) })

/-- A distance symbol (R141, R147): the distance is `base` plus an extra field of `n` bits, and must not exceed HIST. -/
def distanceSymbol (base n : Nat) (s : State) : Result :=
  andThen s (readBits n s) fun (e, s1) =>
    if s1.inf.hist < base + e then raiseDecode .distanceTooFar s1
    else .next (s1.setInf { s1.inf with matchDist := BitVec.ofNat 16 (base + e), infState := .matchByte })

/-- LEN257 (R150). -/
def execLen257 (s : State) : Result := lengthSymbol 3 0 s

/-- LEN258 (R151). -/
def execLen258 (s : State) : Result := lengthSymbol 4 0 s

/-- LEN259 (R152). -/
def execLen259 (s : State) : Result := lengthSymbol 5 0 s

/-- LEN260 (R153). -/
def execLen260 (s : State) : Result := lengthSymbol 6 0 s

/-- LEN261 (R154). -/
def execLen261 (s : State) : Result := lengthSymbol 7 0 s

/-- LEN262 (R155). -/
def execLen262 (s : State) : Result := lengthSymbol 8 0 s

/-- LEN263 (R156). -/
def execLen263 (s : State) : Result := lengthSymbol 9 0 s

/-- LEN264 (R157). -/
def execLen264 (s : State) : Result := lengthSymbol 10 0 s

/-- LEN265 (R158). -/
def execLen265 (s : State) : Result := lengthSymbol 11 1 s

/-- LEN266 (R159). -/
def execLen266 (s : State) : Result := lengthSymbol 13 1 s

/-- LEN267 (R160). -/
def execLen267 (s : State) : Result := lengthSymbol 15 1 s

/-- LEN268 (R161). -/
def execLen268 (s : State) : Result := lengthSymbol 17 1 s

/-- LEN269 (R162). -/
def execLen269 (s : State) : Result := lengthSymbol 19 2 s

/-- LEN270 (R163). -/
def execLen270 (s : State) : Result := lengthSymbol 23 2 s

/-- LEN271 (R164). -/
def execLen271 (s : State) : Result := lengthSymbol 27 2 s

/-- LEN272 (R165). -/
def execLen272 (s : State) : Result := lengthSymbol 31 2 s

/-- LEN273 (R166). -/
def execLen273 (s : State) : Result := lengthSymbol 35 3 s

/-- LEN274 (R167). -/
def execLen274 (s : State) : Result := lengthSymbol 43 3 s

/-- LEN275 (R168). -/
def execLen275 (s : State) : Result := lengthSymbol 51 3 s

/-- LEN276 (R169). -/
def execLen276 (s : State) : Result := lengthSymbol 59 3 s

/-- LEN277 (R170). -/
def execLen277 (s : State) : Result := lengthSymbol 67 4 s

/-- LEN278 (R171). -/
def execLen278 (s : State) : Result := lengthSymbol 83 4 s

/-- LEN279 (R172). -/
def execLen279 (s : State) : Result := lengthSymbol 99 4 s

/-- LEN280 (R173). -/
def execLen280 (s : State) : Result := lengthSymbol 115 4 s

/-- LEN281 (R174). -/
def execLen281 (s : State) : Result := lengthSymbol 131 5 s

/-- LEN282 (R175). -/
def execLen282 (s : State) : Result := lengthSymbol 163 5 s

/-- LEN283 (R176). -/
def execLen283 (s : State) : Result := lengthSymbol 195 5 s

/-- LEN284 (R177). -/
def execLen284 (s : State) : Result := lengthSymbol 227 5 s

/-- LEN285 (R178). -/
def execLen285 (s : State) : Result := lengthSymbol 258 0 s

/-- Reserved symbol 286 (R144): `raise DecodeError(LENGTH_SYMBOL)`. -/
def execLl286 (s : State) : Result := raiseDecode .lengthSymbol s

/-- Reserved symbol 287 (R144): `raise DecodeError(LENGTH_SYMBOL)`. -/
def execLl287 (s : State) : Result := raiseDecode .lengthSymbol s

/-- DIST0 (R180). -/
def execDist0 (s : State) : Result := distanceSymbol 1 0 s

/-- DIST1 (R181). -/
def execDist1 (s : State) : Result := distanceSymbol 2 0 s

/-- DIST2 (R182). -/
def execDist2 (s : State) : Result := distanceSymbol 3 0 s

/-- DIST3 (R183). -/
def execDist3 (s : State) : Result := distanceSymbol 4 0 s

/-- DIST4 (R184). -/
def execDist4 (s : State) : Result := distanceSymbol 5 1 s

/-- DIST5 (R185). -/
def execDist5 (s : State) : Result := distanceSymbol 7 1 s

/-- DIST6 (R186). -/
def execDist6 (s : State) : Result := distanceSymbol 9 2 s

/-- DIST7 (R187). -/
def execDist7 (s : State) : Result := distanceSymbol 13 2 s

/-- DIST8 (R188). -/
def execDist8 (s : State) : Result := distanceSymbol 17 3 s

/-- DIST9 (R189). -/
def execDist9 (s : State) : Result := distanceSymbol 25 3 s

/-- DIST10 (R190). -/
def execDist10 (s : State) : Result := distanceSymbol 33 4 s

/-- DIST11 (R191). -/
def execDist11 (s : State) : Result := distanceSymbol 49 4 s

/-- DIST12 (R192). -/
def execDist12 (s : State) : Result := distanceSymbol 65 5 s

/-- DIST13 (R193). -/
def execDist13 (s : State) : Result := distanceSymbol 97 5 s

/-- DIST14 (R194). -/
def execDist14 (s : State) : Result := distanceSymbol 129 6 s

/-- DIST15 (R195). -/
def execDist15 (s : State) : Result := distanceSymbol 193 6 s

/-- DIST16 (R196). -/
def execDist16 (s : State) : Result := distanceSymbol 257 7 s

/-- DIST17 (R197). -/
def execDist17 (s : State) : Result := distanceSymbol 385 7 s

/-- DIST18 (R198). -/
def execDist18 (s : State) : Result := distanceSymbol 513 8 s

/-- DIST19 (R199). -/
def execDist19 (s : State) : Result := distanceSymbol 769 8 s

/-- DIST20 (R200). -/
def execDist20 (s : State) : Result := distanceSymbol 1025 9 s

/-- DIST21 (R201). -/
def execDist21 (s : State) : Result := distanceSymbol 1537 9 s

/-- DIST22 (R202). -/
def execDist22 (s : State) : Result := distanceSymbol 2049 10 s

/-- DIST23 (R203). -/
def execDist23 (s : State) : Result := distanceSymbol 3073 10 s

/-- DIST24 (R204). -/
def execDist24 (s : State) : Result := distanceSymbol 4097 11 s

/-- DIST25 (R205). -/
def execDist25 (s : State) : Result := distanceSymbol 6145 11 s

/-- DIST26 (R206). -/
def execDist26 (s : State) : Result := distanceSymbol 8193 12 s

/-- DIST27 (R207). -/
def execDist27 (s : State) : Result := distanceSymbol 12289 12 s

/-- DIST28 (R208). -/
def execDist28 (s : State) : Result := distanceSymbol 16385 13 s

/-- DIST29 (R209). -/
def execDist29 (s : State) : Result := distanceSymbol 24577 13 s

/-- Reserved distance symbol 30 (R146): `raise DecodeError(DISTANCE_SYMBOL)`. -/
def execDist30 (s : State) : Result := raiseDecode .distanceSymbol s

/-- Reserved distance symbol 31 (R146): `raise DecodeError(DISTANCE_SYMBOL)`. -/
def execDist31 (s : State) : Result := raiseDecode .distanceSymbol s

/-- The window index a match copy reads: `(WPOS − MATCH_DIST) mod WSIZE`, the non-negative remainder (R48, R148, R179). -/
def matchIndex (s : State) : Nat :=
  (s.inf.wpos + (s.params.wsize - s.inf.matchDist.toNat % s.params.wsize)) % s.params.wsize

/-- MATCH_BYTE (R148): copy one byte of the pending match. -/
def execMatchByte (s : State) : Result :=
  let b := s.mem.win.read (matchIndex s)
  let s1 := s.setInf { s.inf with matchLen := s.inf.matchLen - 1 }
  emit b (if s1.inf.matchLen = 0 then s1.setInf { s1.inf with infState := .sym } else s1)

/-- END (R301): the final block has ended and the image is incomplete. -/
def execEndStep (s : State) : Result := raiseDecode .dataEndedEarly s

end Sys2Proof.Machine
end

