-- ==== Sys2Proof/Machine/Driver.lean ====
section
/-! DEFINITION. The decode driver (45_host): commands, answers, and the CFG port's reads and writes. -/

namespace Sys2Proof.Machine

/-- `CMDSTAT <- c` (R303). -/
def setCmdstat (c : ErrCode) (s : State) : State := s.setDrv { s.drv with cmdstat := c }

/-- An illegal command (R302 a, b): CMDSTAT ← INVALID_PARAMETER, nothing else. -/
def invalidCommand (s : State) : Result := .next (setCmdstat .invalidParameter s)

/-- RESET (R291). -/
def execReset (s : State) : Result := .next (resetCore s)

/-- The checks of COMMIT_HEADER other than the pixel format (R292): INTERLACE, the dimensions, the stride. -/
def headerFits (s : State) : Bool :=
  decide (s.drv.interlace.toNat ≤ 1) && decide (1 ≤ s.drv.width.toNat) && decide (1 ≤ s.drv.height.toNat)
    && decide (s.drv.stride s.drv.width.toNat ≤ s.params.maxStride)

/-- The header has one of the eleven converted formats: accept it if the rest fits (R292). -/
def commitConverted (s : State) : Result :=
  if headerFits s then .next (s.setDrv { s.drv with dstate := .headerReady, cmdstat := .success })
  else raiseUnsupported s

/-- COMMIT_HEADER (R292). The pair (COLORTYPE, BITDEPTH) selects the pixel format's row: a refused one raises
Unsupported(HEADER) (R274 to R278), a converted one goes on to the other checks. -/
def execCommitHeader (s : State) : Result :=
  if s.drv.dstate ≠ .uninit then invalidCommand s
  else
    match decodePixfmt s.drv.colortype s.drv.bitdepth with
    | .pixG16 => execPixG16 s
    | .pixRgb16 => execPixRgb16 s
    | .pixGa16 => execPixGa16 s
    | .pixRgba16 => execPixRgba16 s
    | .pixOther ct bd => execPixOther ct bd s
    | _ => commitConverted s

/-- The first pass of the image (R293). Pass 1 is never empty (R235), so the last resort is never used (log 13). -/
def firstPass (d : Drv) : Nat := if d.interlace = 0 then 0 else (nextPass d 1).getD 1

/-- START (R293). -/
def execStart (s : State) : Result :=
  if s.drv.dstate ≠ .headerReady then invalidCommand s
  else
    let s1 := s.setDrv { s.drv with dstate := .decoding, cmdstat := .success }
    let s2 := s1.setInf { s1.inf with infState := if s1.drv.rawDeflate then .blkhdr else .zhdr }
    .next (startPass (firstPass s2.drv) s2)

/-- Command code 0 (R302 a). -/
def execCmdIllegal0 (s : State) : Result := invalidCommand s

/-- Command codes 4 to 7 (R302 a). -/
def execCmdIllegal4to7 (_low : BitVec 2) (s : State) : Result := invalidCommand s

/-- Answer `continue` (R298); ignored when no row is pending (R302 c). The record does not outlive the answer (R366). -/
def execAnswerContinue (s : State) : Result :=
  if s.drv.rowPending then
    .next (rowAdvance ((s.setRout none).setDrv { s.drv with rowPending := false }))
  else .next s

/-- Answer `stop` (R299); ignored when no row is pending (R302 c). -/
def execAnswerStop (s : State) : Result :=
  if s.drv.rowPending then
    .next ((s.setRout none).setDrv { s.drv with rowPending := false, stopped := true, dstate := .done })
  else .next s

/-! ### The CFG port (10_state R32, 45_host R294, R295) -/

/-- `UNINIT` or `HEADER_READY`, the window RW-UH (R32, R294). -/
def beforeStart (d : DState) : Bool := d == .uninit || d == .headerReady

/-- The value of the CFG register at a word offset (R32, R295); CMD and unmapped offsets read 0. -/
def cfgValue (s : State) (off : Nat) : BitVec 32 :=
  if 0x400 ≤ off then (s.mem.pal.read ((off - 0x400) / 4)).setWidth 32
  else
    match off with
    | 0x004 => BitVec.ofNat 32 s.drv.dstate.code
    | 0x008 => BitVec.ofNat 32 s.drv.errcode.code
    | 0x00C => BitVec.ofNat 32 s.drv.cmdstat.code
    | 0x010 => BitVec.ofNat 32 (bitNat s.drv.rawDeflate)
    | 0x014 => s.drv.width
    | 0x018 => s.drv.height
    | 0x01C => s.drv.bitdepth.setWidth 32
    | 0x020 => s.drv.colortype.setWidth 32
    | 0x024 => s.drv.interlace.setWidth 32
    | 0x028 => s.pix.palCount.setWidth 32
    | 0x02C => BitVec.ofNat 32 (bitNat s.pix.trnsValid)
    | 0x030 => s.pix.trnsIndex.setWidth 32
    | 0x034 => s.pix.trnsGray.setWidth 32
    | 0x038 => s.pix.trnsR.setWidth 32
    | 0x03C => s.pix.trnsG.setWidth 32
    | 0x040 => s.pix.trnsB.setWidth 32
    | 0x044 => BitVec.ofNat 32 s.drv.errcause.code
    | 0x048 => s.flags
    | 0x04C => s.inf.ipos.extractLsb' 0 32
    | 0x050 => s.inf.ipos.extractLsb' 32 32
    | 0x054 => s.drv.rowcnt
    | _ => 0

/-- A write to a header register (R29), open in UNINIT only (R294). -/
def writeHeader (s : State) (d : Drv) : State := if s.drv.dstate = .uninit then s.setDrv d else s

/-- A write to a PIX register (R24, R25), open before START (R294). -/
def writePix (s : State) (p : Pix) : State := if beforeStart s.drv.dstate then s.setPix p else s

/-- A write to palette entry `i` (R24): bits 23:0, open before START (R294). -/
def writePal (i : Nat) (v : BitVec 24) (s : State) : State :=
  if beforeStart s.drv.dstate then s.setMem { s.mem with pal := s.mem.pal.write i v } else s

/-- PAL_COUNT saturates at 256 (R24, D40): over all the bits the host writes. -/
def palCountOf (data : BitVec 32) : BitVec 9 := if 256 < data.toNat then 256 else data.setWidth 9

/-- A CFG write to any register but CMD (R32, R294): outside its window, and to every other offset, it is ignored. -/
def cfgStore (off : Nat) (data : BitVec 32) (s : State) : State :=
  if 0x400 ≤ off then writePal ((off - 0x400) / 4) (data.setWidth 24) s
  else
    match off with
    | 0x010 => if beforeStart s.drv.dstate then s.setDrv { s.drv with rawDeflate := data.getLsbD 0 } else s
    | 0x014 => writeHeader s { s.drv with width := data }
    | 0x018 => writeHeader s { s.drv with height := data }
    | 0x01C => writeHeader s { s.drv with bitdepth := data.setWidth 8 }
    | 0x020 => writeHeader s { s.drv with colortype := data.setWidth 8 }
    | 0x024 => writeHeader s { s.drv with interlace := data.setWidth 8 }
    | 0x028 => writePix s { s.pix with palCount := palCountOf data }
    | 0x02C => writePix s { s.pix with trnsValid := data.getLsbD 0 }
    | 0x030 => writePix s { s.pix with trnsIndex := data.setWidth 8 }
    | 0x034 => writePix s { s.pix with trnsGray := data.setWidth 16 }
    | 0x038 => writePix s { s.pix with trnsR := data.setWidth 16 }
    | 0x03C => writePix s { s.pix with trnsG := data.setWidth 16 }
    | 0x040 => writePix s { s.pix with trnsB := data.setWidth 16 }
    | _ => s

/-- A CFG read (R295): the value, with no side effect on the core; a misaligned access has no meaning (U10). -/
def cfgRead (off : BitVec 11) (s : State) : Result :=
  if off.toNat % 4 ≠ 0 then .refused .misalignedCfg
  else .next (s.setEnv { s.env with rdata := some (cfgValue s off.toNat) })

/-- The source delivers one more byte (R35, R58). A byte after the end of the stream is ignored (log 11); a stream longer than
2^64 − 1 bits has no meaning (R12, U9). -/
def sourceByte (b : Byte) (s : State) : Result :=
  if s.env.cinEnd then .next s
  else if 2 ^ 64 ≤ 8 * (s.env.cin.length + 1) then .refused .streamTooLong
  else .next (s.setEnv { s.env with cin := s.env.cin ++ [b] })

/-- The source signals `cin_eos` (R58). -/
def sourceEnd (s : State) : Result := .next (s.setEnv { s.env with cinEnd := true })

end Sys2Proof.Machine
end

