-- ==== Sys2Proof/Machine/Dispatch.lean ====
section
/-! DEFINITION. The meaning of every row of the opcode table: one direct call per constructor. The step selects the row
(Machine/Sequencer.lean); a meaning performs the row's effect. -/

namespace Sys2Proof.Machine

def exec (i : Instr) (s : State) : Host.Outcome State Fault Refusal :=
  match i with
  | .zhdr cmf flg => Sys2Proof.Machine.execZhdr cmf flg s
  | .blkStored final => Sys2Proof.Machine.execBlkStored final s
  | .blkFixed final => Sys2Proof.Machine.execBlkFixed final s
  | .blkDynamic final => Sys2Proof.Machine.execBlkDynamic final s
  | .blkReserved final => Sys2Proof.Machine.execBlkReserved final s
  | .storedHdr => Sys2Proof.Machine.execStoredHdr s
  | .storedByte => Sys2Proof.Machine.execStoredByte s
  | .dynHdr => Sys2Proof.Machine.execDynHdr s
  | .cl0 => Sys2Proof.Machine.execCl0 s
  | .cl1 => Sys2Proof.Machine.execCl1 s
  | .cl2 => Sys2Proof.Machine.execCl2 s
  | .cl3 => Sys2Proof.Machine.execCl3 s
  | .cl4 => Sys2Proof.Machine.execCl4 s
  | .cl5 => Sys2Proof.Machine.execCl5 s
  | .cl6 => Sys2Proof.Machine.execCl6 s
  | .cl7 => Sys2Proof.Machine.execCl7 s
  | .cl8 => Sys2Proof.Machine.execCl8 s
  | .cl9 => Sys2Proof.Machine.execCl9 s
  | .cl10 => Sys2Proof.Machine.execCl10 s
  | .cl11 => Sys2Proof.Machine.execCl11 s
  | .cl12 => Sys2Proof.Machine.execCl12 s
  | .cl13 => Sys2Proof.Machine.execCl13 s
  | .cl14 => Sys2Proof.Machine.execCl14 s
  | .cl15 => Sys2Proof.Machine.execCl15 s
  | .cl16 => Sys2Proof.Machine.execCl16 s
  | .cl17 => Sys2Proof.Machine.execCl17 s
  | .cl18 => Sys2Proof.Machine.execCl18 s
  | .lit b => Sys2Proof.Machine.execLit b s
  | .eob => Sys2Proof.Machine.execEob s
  | .len257 => Sys2Proof.Machine.execLen257 s
  | .len258 => Sys2Proof.Machine.execLen258 s
  | .len259 => Sys2Proof.Machine.execLen259 s
  | .len260 => Sys2Proof.Machine.execLen260 s
  | .len261 => Sys2Proof.Machine.execLen261 s
  | .len262 => Sys2Proof.Machine.execLen262 s
  | .len263 => Sys2Proof.Machine.execLen263 s
  | .len264 => Sys2Proof.Machine.execLen264 s
  | .len265 => Sys2Proof.Machine.execLen265 s
  | .len266 => Sys2Proof.Machine.execLen266 s
  | .len267 => Sys2Proof.Machine.execLen267 s
  | .len268 => Sys2Proof.Machine.execLen268 s
  | .len269 => Sys2Proof.Machine.execLen269 s
  | .len270 => Sys2Proof.Machine.execLen270 s
  | .len271 => Sys2Proof.Machine.execLen271 s
  | .len272 => Sys2Proof.Machine.execLen272 s
  | .len273 => Sys2Proof.Machine.execLen273 s
  | .len274 => Sys2Proof.Machine.execLen274 s
  | .len275 => Sys2Proof.Machine.execLen275 s
  | .len276 => Sys2Proof.Machine.execLen276 s
  | .len277 => Sys2Proof.Machine.execLen277 s
  | .len278 => Sys2Proof.Machine.execLen278 s
  | .len279 => Sys2Proof.Machine.execLen279 s
  | .len280 => Sys2Proof.Machine.execLen280 s
  | .len281 => Sys2Proof.Machine.execLen281 s
  | .len282 => Sys2Proof.Machine.execLen282 s
  | .len283 => Sys2Proof.Machine.execLen283 s
  | .len284 => Sys2Proof.Machine.execLen284 s
  | .len285 => Sys2Proof.Machine.execLen285 s
  | .ll286 => Sys2Proof.Machine.execLl286 s
  | .ll287 => Sys2Proof.Machine.execLl287 s
  | .dist0 => Sys2Proof.Machine.execDist0 s
  | .dist1 => Sys2Proof.Machine.execDist1 s
  | .dist2 => Sys2Proof.Machine.execDist2 s
  | .dist3 => Sys2Proof.Machine.execDist3 s
  | .dist4 => Sys2Proof.Machine.execDist4 s
  | .dist5 => Sys2Proof.Machine.execDist5 s
  | .dist6 => Sys2Proof.Machine.execDist6 s
  | .dist7 => Sys2Proof.Machine.execDist7 s
  | .dist8 => Sys2Proof.Machine.execDist8 s
  | .dist9 => Sys2Proof.Machine.execDist9 s
  | .dist10 => Sys2Proof.Machine.execDist10 s
  | .dist11 => Sys2Proof.Machine.execDist11 s
  | .dist12 => Sys2Proof.Machine.execDist12 s
  | .dist13 => Sys2Proof.Machine.execDist13 s
  | .dist14 => Sys2Proof.Machine.execDist14 s
  | .dist15 => Sys2Proof.Machine.execDist15 s
  | .dist16 => Sys2Proof.Machine.execDist16 s
  | .dist17 => Sys2Proof.Machine.execDist17 s
  | .dist18 => Sys2Proof.Machine.execDist18 s
  | .dist19 => Sys2Proof.Machine.execDist19 s
  | .dist20 => Sys2Proof.Machine.execDist20 s
  | .dist21 => Sys2Proof.Machine.execDist21 s
  | .dist22 => Sys2Proof.Machine.execDist22 s
  | .dist23 => Sys2Proof.Machine.execDist23 s
  | .dist24 => Sys2Proof.Machine.execDist24 s
  | .dist25 => Sys2Proof.Machine.execDist25 s
  | .dist26 => Sys2Proof.Machine.execDist26 s
  | .dist27 => Sys2Proof.Machine.execDist27 s
  | .dist28 => Sys2Proof.Machine.execDist28 s
  | .dist29 => Sys2Proof.Machine.execDist29 s
  | .dist30 => Sys2Proof.Machine.execDist30 s
  | .dist31 => Sys2Proof.Machine.execDist31 s
  | .matchByte => Sys2Proof.Machine.execMatchByte s
  | .endStep => Sys2Proof.Machine.execEndStep s
  | .filtNone => Sys2Proof.Machine.execFiltNone s
  | .filtSub => Sys2Proof.Machine.execFiltSub s
  | .filtUp => Sys2Proof.Machine.execFiltUp s
  | .filtAvg => Sys2Proof.Machine.execFiltAvg s
  | .filtPaeth => Sys2Proof.Machine.execFiltPaeth s
  | .filtReserved5 => Sys2Proof.Machine.execFiltReserved5 s
  | .filtReserved6to7 low => Sys2Proof.Machine.execFiltReserved6to7 low s
  | .filtReserved8to15 low => Sys2Proof.Machine.execFiltReserved8to15 low s
  | .filtReserved16to31 low => Sys2Proof.Machine.execFiltReserved16to31 low s
  | .filtReserved32to63 low => Sys2Proof.Machine.execFiltReserved32to63 low s
  | .filtReserved64to127 low => Sys2Proof.Machine.execFiltReserved64to127 low s
  | .filtReserved128to255 low => Sys2Proof.Machine.execFiltReserved128to255 low s
  | .pixG1 => Sys2Proof.Machine.execPixG1 s
  | .pixG2 => Sys2Proof.Machine.execPixG2 s
  | .pixG4 => Sys2Proof.Machine.execPixG4 s
  | .pixG8 => Sys2Proof.Machine.execPixG8 s
  | .pixRgb8 => Sys2Proof.Machine.execPixRgb8 s
  | .pixI1 => Sys2Proof.Machine.execPixI1 s
  | .pixI2 => Sys2Proof.Machine.execPixI2 s
  | .pixI4 => Sys2Proof.Machine.execPixI4 s
  | .pixI8 => Sys2Proof.Machine.execPixI8 s
  | .pixGa8 => Sys2Proof.Machine.execPixGa8 s
  | .pixRgba8 => Sys2Proof.Machine.execPixRgba8 s
  | .pixG16 => Sys2Proof.Machine.execPixG16 s
  | .pixRgb16 => Sys2Proof.Machine.execPixRgb16 s
  | .pixGa16 => Sys2Proof.Machine.execPixGa16 s
  | .pixRgba16 => Sys2Proof.Machine.execPixRgba16 s
  | .pixOther ct bd => Sys2Proof.Machine.execPixOther ct bd s
  | .reset => Sys2Proof.Machine.execReset s
  | .commitHeader => Sys2Proof.Machine.execCommitHeader s
  | .start => Sys2Proof.Machine.execStart s
  | .cmdIllegal0 => Sys2Proof.Machine.execCmdIllegal0 s
  | .cmdIllegal4to7 low => Sys2Proof.Machine.execCmdIllegal4to7 low s
  | .answerContinue => Sys2Proof.Machine.execAnswerContinue s
  | .answerStop => Sys2Proof.Machine.execAnswerStop s

end Sys2Proof.Machine
end

