-- ==== Sys2Proof/Machine/Sequencer.lean ====
section
/-! DEFINITION. Stepping (45_host R296): which row the next step executes, the turn of the core, the turn of the environment,
the pull of the input window (10_state R33), and where a bare table word is laid so that the next step runs it (log 12). -/

namespace Sys2Proof.Machine

/-! ### The core's step -/

/-- The word that selects the row of the next INF step (R13, R89), and the state once its bits are consumed: bits of the
stream for the headers (R71, R72), a decoded symbol number for the three alphabets (R107, R141), and INF_STATE itself where the
row has no selecting bits (log 2). -/
def fetchWord (s : State) : Except Stop (Format × Nat × State) :=
  match s.inf.infState with
  | .zhdr => (readBits 16 s).map fun r => (.zhdr, r.1, r.2)
  | .blkhdr => (readBits 3 s).map fun r => (.blkhdr, r.1, r.2)
  | .storedHdr => .ok (.stored, InfState.storedHdr.code, s)
  | .storedByte => .ok (.stored, InfState.storedByte.code, s)
  | .dynHdr => .ok (.dynhdr, InfState.dynHdr.code, s)
  | .clSym => (decodeSym (fileLens s.inf.clLen) s).map fun r => (.clsym, r.1, r.2)
  | .sym => (decodeSym (fileLens s.inf.llLen) s).map fun r => (.llsym, r.1, r.2)
  | .matchByte => .ok (.micro, InfState.matchByte.code, s)
  | .ended => .ok (.micro, InfState.ended.code, s)

/-- Run the row that a word selects. Every word that `fetchWord` and `distanceStep` produce has a row. -/
def runWord (f : Format) (w : Nat) (run : Instr → Result) : Result :=
  match decode f w with
  | .ok i => run i
  | .error _ => .refused .noSuchRow

/-- The second half of a SYM step on a length symbol (R141): decode a distance symbol with D_LEN and run its row. -/
def distanceStep (s : State) : Result :=
  andThen s (decodeSym (fileLens s.inf.dLen) s) fun (t, s1) => runWord .dsym t fun i => exec i s1

/-- Run one row; a length symbol that did not raise goes on with its distance symbol in the same step (R141, R145). -/
def runElement (i : Instr) (s : State) : Result :=
  match exec i s with
  | .next t => if i.isLength && t.drv.dstate == .decoding then distanceStep t else .next t
  | .fault f => .fault f
  | .refused r => .refused r

/-- One atomic INF step with everything downstream of it (R296). -/
def coreStep (s : State) : Result :=
  andThen s (fetchWord s) fun (f, w, s1) => runWord f w fun i => runElement i s1

/-! ### The hidden input window (R33) -/

/-- The least PULLED after a step (R33): what was pulled stays pulled, and the byte of bit IPOS − 1 has been. After a fatal
error IPOS is no longer defined (R326), so only the first bound is left. -/
def pullLow (s : State) : Nat :=
  if s.drv.dstate = .error then s.env.pulled else max s.env.pulled (divUp s.inf.ipos.toNat 8)

/-- The greatest PULLED after a step (R33): at most IN_WINDOW_BYTES ahead, and never more than was delivered. -/
def pullHigh (s : State) : Nat :=
  if s.drv.dstate = .error then s.env.cin.length
  else min s.env.cin.length (s.inf.ipos.toNat / 8 + s.params.inWindowBytes)

/-- PULLED after a step: a free draw within its bounds ("a free draw per step", R33, log 8). -/
def pull (s : State) : State :=
  { s with
    env := { s.env with pulled := pullLow s + Config.freePull s.freeCtr % (pullHigh s - pullLow s + 1) }
    freeCtr := s.freeCtr + 1 }

/-- IWIN (R33): the bytes pulled and not yet consumed whole. -/
def iwin (s : State) : List Byte := (s.env.cin.take s.env.pulled).drop (s.inf.ipos.toNat / 8)

/-- The bit reader's bit offset into IWIN (R33). -/
def iwinBitOffset (s : State) : Nat := s.inf.ipos.toNat % 8

/-! ### Turns -/

/-- The core's turn: one step if one is enabled (R296), else the hold that it waits in (R373, R297, R58). -/
def coreTurn (s : State) : Result :=
  match s.drv.dstate with
  | .uninit => .fault .awaitHost
  | .headerReady => .fault .awaitHost
  | .done => .fault .awaitReset
  | .error => .fault .awaitReset
  | .decoding =>
    if s.drv.rowPending then .fault .awaitSink
    else
      match coreStep s with
      | .next t => .next (pull t)
      | .fault f => .fault f
      | .refused r => .refused r

/-- A CFG write (R32): offset 0 is CMD, whose low three bits select a command (R88, R302); every other offset is a register,
the palette, or nothing (R294). A misaligned access has no meaning (R46 d, U10). -/
def cfgWrite (off : BitVec 11) (data : BitVec 32) (s : State) : Result :=
  if off.toNat % 4 ≠ 0 then .refused .misalignedCfg
  else if off = 0 then runWord .cmd (data.toNat % 8) fun i => exec i s
  else .next (cfgStore off.toNat data s)

/-- One action of the environment, taken between two steps (R305, R323). -/
def envAct (a : EnvAct) (s : State) : Result :=
  match a with
  | .hwReset => execReset s
  | .cfgWrite off data => cfgWrite off data s
  | .cfgRead off => cfgRead off s
  | .cinByte b => sourceByte b s
  | .cinEos => sourceEnd s
  | .answer bit => runWord .rowans bit.toNat fun i => exec i s

/-- The two sources of reset (R360): the reset input, and a CMD write of code 1 (R88). -/
def EnvAct.isReset (a : EnvAct) : Bool :=
  match a with
  | .hwReset => true
  | .cfgWrite off data => off == 0 && data.toNat % 8 == 1
  | .cfgRead _ => false
  | .cinByte _ => false
  | .cinEos => false
  | .answer _ => false

/-- The environment's turn. Before the first reset nothing but a reset has a meaning (R39, U1, log 6). -/
def envTurn (a : EnvAct) (s : State) : Result :=
  if s.env.beenReset || a.isReset then envAct a s else .refused .beforeFirstReset

/-- Leave these actions for later. -/
def State.setInputs (s : State) (q : List (Nat × EnvAct)) : State := { s with env := { s.env with inputs := q } }

/-- The core's turn, if it has been reset. -/
def coreTurnIfReset (s : State) : Result := if s.env.beenReset then coreTurn s else .fault .awaitReset

/-- Who moves next (R305: some total order). With nothing queued, the core. With an action queued, the core moves first as
often as the action's delay says; the action comes when the delay is used up, or when no step of the core is enabled (log 5). -/
def turn (s : State) : Result :=
  match s.env.inputs with
  | [] => coreTurnIfReset s
  | (0, a) :: rest => envTurn a (s.setInputs rest)
  | (n + 1, a) :: rest =>
    match coreTurnIfReset s with
    | .next t => .next (t.setInputs ((n, a) :: rest))
    | .fault _ => envTurn a (s.setInputs rest)
    | .refused r => .refused r

/-! ### Where a bare table word is laid (log 12) -/

/-- The stream from bit IPOS on becomes the given bits, then 64 zero bits and the padding to a byte; the bits before IPOS
stay. -/
def layBits (bs : List Bool) (s : State) : State :=
  let p := s.inf.ipos.toNat
  let whole := s.env.cin.take (p / 8) ++ List.replicate (p / 8 - s.env.cin.length) 0
  let kept := (List.range (p % 8)).map fun k => cinBit s.env.cin (p - p % 8 + k)
  s.setEnv { s.env with cin := whole ++ packBytes (divUp (p % 8 + bs.length) 8 + 8) (kept ++ bs) }

/-- The core is decoding, no row is pending, nothing is queued, and the next element is of the given kind. -/
def layState (k : InfState) (s : State) : State :=
  let s1 := ((s.setRout none).setDrv { s.drv with dstate := .decoding, rowPending := false }).setInf { s.inf with infState := k }
  s1.setEnv { s1.env with inputs := [], beenReset := true }

/-- The next decompressed byte is data in the middle of a row. -/
def layData (s : State) : State := s.setFlt { s.flt with rphase := .data, rx := 0, pstride := 2 }

/-- A code-length symbol: every code-length symbol has a code of 5 bits, and one of 258 lengths has been read. -/
def layClsym (n : Nat) (s : State) : State :=
  let s1 := layState .clSym s
  layBits (codeBits 5 n)
    (s1.setInf { s1.inf with clLen := lengthFile 19 (fun _ => 5), nlen := 257, ndist := 1, lidx := 1 })

/-- A literal/length symbol, in the fixed code, with a full history. -/
def layLlsym (n : Nat) (s : State) : State :=
  let s1 := layData (layState .sym s)
  layBits (symbolBits fixedLitLens n)
    (s1.setInf { s1.inf with llLen := fixedLlLen, dLen := fixedDLen, hist := s.params.wsize })

/-- A distance symbol, after the length symbol 257, in the fixed codes, with a full history. -/
def layDsym (n : Nat) (s : State) : State :=
  let s1 := layData (layState .sym s)
  layBits (symbolBits fixedLitLens 257 ++ symbolBits fixedDistLens n)
    (s1.setInf { s1.inf with llLen := fixedLlLen, dLen := fixedDLen, hist := s.params.wsize })

/-- A stored byte that FLT receives as the filter tag. -/
def layTag (b : Nat) (s : State) : State :=
  let s1 := layState .storedByte s
  layBits (fieldBits 8 b) ((s1.setInf { s1.inf with storedRem := 2 }).setFlt { s1.flt with rphase := .tag })

/-- A stored byte that completes a row of one pixel in the given format. -/
def layRow (ct bd : Byte) (s : State) : State :=
  let s1 := layState .storedByte s
  let d := { s1.drv with colortype := ct, bitdepth := bd }
  layBits (fieldBits 8 0)
    (((s1.setDrv d).setInf { s1.inf with storedRem := 2 }).setFlt
      { s1.flt with pass := 0, pw := 1, ph := 1, rphase := .data, rx := d.stride 1 - 1, pstride := d.stride 1 })

/-- An action of the environment that comes at once. -/
def layAct (a : EnvAct) (s : State) : State := s.setEnv { s.env with inputs := [(0, a)], beenReset := true }

/-- A header of a refused pixel format, and the COMMIT_HEADER that finds it. -/
def layHeader (ct bd : Byte) (s : State) : State :=
  layAct (.cfgWrite 0 2) (s.setDrv { s.drv with dstate := .uninit, colortype := ct, bitdepth := bd })

/-- A pixel format: the row of a converted one, the header of a refused one. -/
def layPixfmt (w : Nat) (s : State) : State :=
  let ct := BitVec.ofNat 8 (w / 256)
  let bd := BitVec.ofNat 8 w
  if channels ct ≠ 0 ∧ bd.toNat ≤ 8 ∧ namedPixelPairs.contains (ct.toNat, bd.toNat) then layRow ct bd s else layHeader ct bd s

/-- An answer to a pending row. -/
def layAnswer (w : Nat) (s : State) : State :=
  layAct (.answer (BitVec.ofNat 1 w)) (s.setDrv { s.drv with dstate := .decoding, rowPending := true })

/-- Lay an instruction where the next step executes it: what selects its row, and the bits of its word. -/
def layWord (f : Format) (w : Nat) (s : State) : State :=
  match f with
  | .zhdr => layBits (fieldBits 16 w) (layState .zhdr s)
  | .blkhdr => layBits (fieldBits 3 w) (layState .blkhdr s)
  | .stored => if w = 2 then layBits [] (layState .storedHdr s) else layTag 0 s
  | .dynhdr => layBits [] (layState .dynHdr s)
  | .clsym => layClsym w s
  | .llsym => layLlsym w s
  | .dsym => layDsym w s
  | .micro =>
    if w = 7 then
      let s1 := layData (layState .matchByte s)
      s1.setInf { s1.inf with matchLen := 3, matchDist := 1, hist := s.params.wsize }
    else layState .ended s
  | .ftag => layTag w s
  | .pixfmt => layPixfmt w s
  | .cmd => layAct (.cfgWrite 0 (BitVec.ofNat 32 w)) s
  | .rowans => layAnswer w s

end Sys2Proof.Machine
end

