-- ==== Sys2Proof/Machine/Step.lean ====
section
/-! DEFINITION. The one step of the machine, and where the host lays a table word. -/

namespace Sys2Proof.Machine

/-- One step: an atomic step of the core or one action of its environment (R296, R305), whichever comes next. -/
def step (s : State) : Host.Outcome State Fault Refusal := turn s

/-- The state in which the very next step runs the instruction that the bare table word stands for (log 12). -/
def State.withFetchWord (s : State) (nbits w : Nat) : State :=
  match decodeTableWord nbits w with
  | some i => layWord (encode i).1 (encode i).2 s
  | none => s

end Sys2Proof.Machine
end

