-- ==== Sys2Proof/Safety.lean ====
section
/-! DEFINITION. What counts as a sound state and a safe run (60_exceptions R334, 10_state R33, 45_host R290, R297), in the
terms that claims use. Each invariant is a proposition about one state. -/

namespace Sys2Proof

/-- The rows that the compressed stream can reach: not the host's commands, the sink's answers or the pixel formats. -/
def Instr.fromStream (i : Instr) : Bool := (encode i).1 != .cmd && (encode i).1 != .rowans && (encode i).1 != .pixfmt

end Sys2Proof

namespace Sys2Proof.Machine

/-- The step ends in a next state. -/
def Result.isNext (r : Result) : Bool :=
  match r with
  | .next _ => true
  | .fault _ => false
  | .refused _ => false

/-- The step has no meaning. -/
def Result.isRefused (r : Result) : Bool :=
  match r with
  | .next _ => false
  | .fault _ => false
  | .refused _ => true

/-! ### Vocabulary of the claims -/

/-- Nothing stands before the core's step: it has been reset, it is decoding, no row is pending, no action is queued. -/
structure CoreMoves (s : State) : Prop where
  beenReset : s.env.beenReset = true
  noInput : s.env.inputs = []
  decoding : s.drv.dstate = .decoding
  notPending : s.drv.rowPending = false

/-- `Σ 2^(15 − LEN[s])` over the symbols that have a code: the code space used, of 2^15 (R131). -/
def kraft (lens : List Nat) : Nat := (lens.map fun l => if l = 0 then 0 else 2 ^ (15 - l)).sum

/-- One instruction, `n` times. -/
def repeatExec (i : Instr) : Nat → State → Result
  | 0, s => .next s
  | n + 1, s =>
    match exec i s with
    | .next t => repeatExec i n t
    | .fault f => .fault f
    | .refused r => .refused r

/-- The k-th sample of a row of d-bit samples, most significant bits first, as a number (R251). -/
def sampleNat (row : Cells 8) (k d : Nat) : Nat := (row.read (k * d / 8)).toNat / 2 ^ (8 - d - k * d % 8) % 2 ^ d

/-- Bit number `k` of a row, the most significant bit of byte 0 first (R251). -/
def rowBit (row : Cells 8) (k : Nat) : Bool := (row.read (k / 8)).getLsbD (7 - k % 8)

/-- The position tags and the fixed fields of a row record (R236, R280, R36). -/
structure RecordTags (s : State) (r : RowRecord) : Prop where
  x : r.x.toNat = (passGeometry s.flt.pass.toNat).xo
  y : r.y = BitVec.ofNat 32 ((passGeometry s.flt.pass.toNat).yo + s.flt.prow.toNat * (passGeometry s.flt.pass.toNat).ys)
  width : r.width = s.flt.pw
  xstep : r.xstep.toNat = (passGeometry s.flt.pass.toNat).xs
  bpp : r.bpp.toNat = 8 * s.och
  pixtype : r.pixtype = s.drv.colortype

/-- `t` is `s` with the record `r` presented and counted (R223, R297), and nothing else changed. -/
def presented (r : RowRecord) (s : State) : State :=
  (s.setRout (some r)).setDrv { s.drv with rowPending := true, rowcnt := s.drv.rowcnt + 1 }

/-- The four ways that a row appends a run to LENS (R110 to R113): row `i` in state `s` reads `n` extra bits and appends `v`
`rep` times. -/
def AppendsLengths (i : Instr) (s : State) (n rep : Nat) (v : BitVec 4) : Prop :=
  (∃ k, k ≤ 15 ∧ decode .clsym k = .ok i ∧ n = 0 ∧ rep = 1 ∧ v = BitVec.ofNat 4 k)
  ∨ (i = .cl16 ∧ s.inf.lidx ≠ 0 ∧ n = 2 ∧ rep = 3 + nextBits 2 s
      ∧ v = s.inf.lens.toList.getD (s.inf.lidx.toNat - 1) 0)
  ∨ (i = .cl17 ∧ n = 3 ∧ rep = 3 + nextBits 3 s ∧ v = 0)
  ∨ (i = .cl18 ∧ n = 7 ∧ rep = 11 + nextBits 7 s ∧ v = 0)

/-- `t` is `s` with `n` bits consumed, `v` written to `rep` entries of LENS from LIDX on, LIDX moved, and nothing else changed. -/
structure LengthsAppended (n rep : Nat) (v : BitVec 4) (s t : State) : Prop where
  state : t = (advance n s).setInf { (advance n s).inf with lens := t.inf.lens, lidx := t.inf.lidx }
  lidx : t.inf.lidx.toNat = s.inf.lidx.toNat + rep
  lens : ∀ j, j < 316 → t.inf.lens.toList.getD j 0
    = if s.inf.lidx.toNat ≤ j ∧ j < s.inf.lidx.toNat + rep then v else s.inf.lens.toList.getD j 0

/-- The three rows that emit a byte (R142, R103, R148): row `i` in state `s` emits `b`, and `u` is `s` with what the row does to
INF before it emits. -/
def Emits (i : Instr) (b : Byte) (s u : State) : Prop :=
  (i = .lit b ∧ u = s)
  ∨ (i = .storedByte ∧ 1 ≤ s.inf.storedRem.toNat ∧ s.inf.ipos.toNat + 8 ≤ 8 * s.env.cin.length
      ∧ b = BitVec.ofNat 8 (nextBits 8 s)
      ∧ u = (advance 8 s).setInf { (advance 8 s).inf with
          storedRem := s.inf.storedRem - 1
          infState := if s.inf.storedRem = 1 then (if s.inf.bfinal then .ended else .blkhdr) else s.inf.infState })
  ∨ (i = .matchByte ∧ 1 ≤ s.inf.matchLen.toNat ∧ s.inf.wpos < s.params.wsize
      ∧ s.inf.matchDist.toNat ≤ s.params.wsize
      ∧ b = s.mem.win.read (((s.inf.wpos : Int) - s.inf.matchDist.toNat) % s.params.wsize).toNat
      ∧ u = s.setInf { s.inf with
          matchLen := s.inf.matchLen - 1
          infState := if s.inf.matchLen = 1 then .sym else s.inf.infState })

/-- `t` is `s` with the byte `b` in the window, as `Emit` puts it there (R140), and nothing else changed. -/
structure InWindow (b : Byte) (s t : State) : Prop where
  inf : t.inf = { s.inf with wpos := (s.inf.wpos + 1) % s.params.wsize, hist := min (s.inf.hist + 1) s.params.wsize }
  winAt : t.mem.win.read s.inf.wpos = b
  winElse : ∀ a, a ≠ s.inf.wpos → t.mem.win.read a = s.mem.win.read a
  prevRow : t.prevRow = s.prevRow
  pal : t.mem.pal = s.mem.pal
  pix : t.pix = s.pix
  drv : t.drv = s.drv
  rout : t.rout = s.rout
  env : t.env = s.env
  params : t.params = s.params

/-- What emitting a byte in the middle of a row does (R140, R222), and that it changes nothing else (R38): beside the window,
the current row at RX, and RX. -/
structure EmittedMidRow (b : Byte) (s t : State) : Prop where
  window : InWindow b s t
  flt : t.flt = { s.flt with rx := s.flt.rx + 1 }
  rowAt : t.curRow.read s.flt.rx = b
  rowElse : ∀ a, a ≠ s.flt.rx → t.curRow.read a = s.curRow.read a

/-- Pass `q` contains pixels (R235). -/
def PassHasPixels (d : Drv) (q : Nat) : Prop := 1 ≤ passWidth d q ∧ 1 ≤ passHeight d q

/-- `q` is the next pass from number `k` on (R235): the smallest q with k ≤ q ≤ 7 that contains pixels. -/
def IsNextPass (d : Drv) (k q : Nat) : Prop :=
  k ≤ q ∧ q ≤ 7 ∧ PassHasPixels d q ∧ ∀ r, k ≤ r → r < q → ¬ PassHasPixels d r

/-- There is no pass from number `k` on (R235). -/
def NoNextPass (d : Drv) (k : Nat) : Prop := ∀ r, k ≤ r → r ≤ 7 → ¬ PassHasPixels d r

/-- A field of `n` bits reaches beyond the delivered bits (R42, R58). -/
def FieldShort (n : Nat) (s : State) : Prop := 0 < n ∧ 8 * s.env.cin.length < s.inf.ipos.toNat + n

/-- A code reaches beyond the delivered bits (R133, R58): fewer than 15 bits have been delivered from IPOS on, and they begin
with the code of no symbol. -/
def CodeShort (lens : List Nat) (s : State) : Prop :=
  8 * s.env.cin.length < s.inf.ipos.toNat + 15
  ∧ ∀ sym k, lens[sym]? = some k → 0 < k → s.inf.ipos.toNat + k ≤ 8 * s.env.cin.length →
    ∃ j, j < k ∧ cinBit s.env.cin (s.inf.ipos.toNat + j) ≠ (canonCode lens sym).testBit (k - 1 - j)

/-- A dynamic header reaches beyond the delivered bits (R105): in its counts, or, when they are legal, in its code-length
lengths. -/
def DynShort (s : State) : Prop :=
  FieldShort 14 s
  ∨ (nextBits 5 s + 257 ≤ 286 ∧ nextBits 5 (advance 5 s) + 1 ≤ 30
    ∧ FieldShort (14 + 3 * (nextBits 4 (advance 10 s) + 4)) s)

/-- A code-length symbol reaches beyond the delivered bits (R107, R111 to R113): in its code, or in the extra field of a
repeat that reads one. -/
def ClShort (s : State) : Prop :=
  CodeShort (fileLens s.inf.clLen) s
  ∨ ∃ sym s1, decodeSym (fileLens s.inf.clLen) s = .ok (sym, s1)
    ∧ ((sym = 16 ∧ s.inf.lidx ≠ 0 ∧ FieldShort 2 s1) ∨ (sym = 17 ∧ FieldShort 3 s1) ∨ (sym = 18 ∧ FieldShort 7 s1))

/-- After a length symbol and its `n` extra bits at `s1`, the distance reaches beyond the delivered bits (R141, R145): in its
code, or in its extra field. -/
def DistanceShort (n : Nat) (s1 : State) : Prop :=
  s1.inf.ipos.toNat + n ≤ 8 * s1.env.cin.length
  ∧ (CodeShort (fileLens s1.inf.dLen) (advance n s1)
    ∨ ∃ t s2 base dn, decodeSym (fileLens s1.inf.dLen) (advance n s1) = .ok (t, s2)
      ∧ distanceTable[t]? = some (base, dn) ∧ FieldShort dn s2)

/-- A literal/length symbol with everything that belongs to it reaches beyond the delivered bits (R141, R145). -/
def SymShort (s : State) : Prop :=
  CodeShort (fileLens s.inf.llLen) s
  ∨ ∃ sym s1 base n, decodeSym (fileLens s.inf.llLen) s = .ok (sym, s1) ∧ 257 ≤ sym
    ∧ lengthTable[sym - 257]? = some (base, n) ∧ (FieldShort n s1 ∨ DistanceShort n s1)

/-- The step that INF_STATE selects needs more bits than have been delivered (R58). -/
def NeedsBits (s : State) : Prop :=
  match s.inf.infState with
  | .zhdr => FieldShort 16 s
  | .blkhdr => FieldShort 3 s
  | .storedHdr => FieldShort 32 (alignByte s)
  | .storedByte => FieldShort 8 s
  | .dynHdr => DynShort s
  | .clSym => ClShort s
  | .sym => SymShort s
  | .matchByte => False
  | .ended => False

/-- COLORTYPE and BITDEPTH are one of the eleven formats that PIX converts (R278, R292). -/
def Drv.converted (d : Drv) : Bool := (namedPixelPairs.take 11).contains (d.colortype.toNat, d.bitdepth.toNat)

/-- The header has been accepted by COMMIT_HEADER (R292). -/
def State.headerOk (s : State) : Bool := s.drv.converted && headerFits s

/-- Input accounting (R12, R33): IPOS is inside the delivered stream, whose bits a 64-bit IPOS can count, and PULLED is
between the byte of bit IPOS and IN_WINDOW_BYTES ahead of it. After a fatal error IPOS is undefined (R326). -/
structure InputInv (s : State) : Prop where
  counted : 8 * s.env.cin.length < 2 ^ 64
  pulledDelivered : s.env.pulled ≤ s.env.cin.length
  consumed : s.drv.dstate ≠ .error → s.inf.ipos.toNat ≤ 8 * s.env.cin.length
  pulledLow : s.drv.dstate ≠ .error → divUp s.inf.ipos.toNat 8 ≤ s.env.pulled
  pulledHigh : s.drv.dstate ≠ .error → s.env.pulled ≤ s.inf.ipos.toNat / 8 + s.params.inWindowBytes

/-- Status registers (R26 to R28, R36, R290, R297, R299, R320, R321): a row is pending exactly while a record is presented, and
only while decoding; ERRCODE and ERRCAUSE tell of an error exactly in ERROR; only a stopped decode has STOPPED set. -/
structure StatusInv (s : State) : Prop where
  pendingRecord : s.drv.rowPending = s.rout.isSome
  pendingDecoding : s.drv.rowPending = true → s.drv.dstate = .decoding
  stoppedDone : s.drv.stopped = true → s.drv.dstate = .done
  errorCode : s.drv.dstate = .error ↔ s.drv.errcode ≠ .success
  errorCause : s.drv.dstate = .error ↔ s.drv.errcause ≠ .noError
  headerCode : s.drv.errcause = .header ↔ s.drv.errcode = .unsupportedFeature
  decodeCode : s.drv.errcode = .success ∨ s.drv.errcode = .decodeError ∨ s.drv.errcode = .unsupportedFeature

/-- The dictionary (R20, R48): WPOS and HIST stay inside the window. After a fatal error HIST is any value of its width. -/
structure WindowInv (s : State) : Prop where
  wpos : s.inf.wpos < s.params.wsize
  histWidth : s.inf.hist < 2 * s.params.wsize
  hist : s.drv.dstate ≠ .error → s.inf.hist ≤ s.params.wsize

/-- The element that INF_STATE announces has what its rule says it has on entry (R103, R107, R148, R147). -/
structure ElementInv (s : State) : Prop where
  stored : s.drv.dstate ≠ .error → s.inf.infState = .storedByte → 1 ≤ s.inf.storedRem.toNat
  lengths : s.drv.dstate ≠ .error → s.inf.infState = .clSym →
    257 ≤ s.inf.nlen.toNat ∧ s.inf.nlen.toNat ≤ 286 ∧ 1 ≤ s.inf.ndist.toNat ∧ s.inf.ndist.toNat ≤ 30
      ∧ s.inf.lidx.toNat < s.inf.lensTotal
  copy : s.drv.dstate ≠ .error → s.inf.infState = .matchByte →
    1 ≤ s.inf.matchLen.toNat ∧ s.inf.matchLen.toNat ≤ 258
      ∧ 1 ≤ s.inf.matchDist.toNat ∧ s.inf.matchDist.toNat ≤ s.inf.hist

/-- Rows (R22, R23, R49, R235): the header was accepted before START; while decoding, the pass is not empty, its stride fits
the row buffers, RX is below it unless the row is complete, and FTYPE is one of the five filters. -/
structure RowInv (s : State) : Prop where
  header : s.drv.dstate = .headerReady ∨ s.drv.dstate = .decoding ∨ s.drv.dstate = .done → s.headerOk = true
  rxWidth : s.flt.rx ≤ s.params.maxStride
  pstrideWidth : s.flt.pstride ≤ s.params.maxStride
  pass : s.drv.dstate = .decoding → (s.flt.pass = 0 ↔ s.drv.interlace = 0)
  stride : s.drv.dstate = .decoding → 1 ≤ s.flt.pstride
  row : s.drv.dstate = .decoding → s.flt.prow.toNat < s.flt.ph.toNat
  room : s.drv.dstate = .decoding → s.flt.rphase = .data → s.drv.rowPending = false → s.flt.rx < s.flt.pstride
  filter : s.drv.dstate = .decoding → s.flt.rphase = .data → s.flt.ftype.toNat ≤ 4

/-- PAL_COUNT is at most 256 (R24). -/
def PaletteInv (s : State) : Prop := s.pix.palCount.toNat ≤ 256

/-- Everything that every step keeps: memories in canonical form and inside their spaces (R40, R334), and the rest above. -/
structure Inv (s : State) : Prop where
  memory : s.mem.wf = true
  bounds : s.mem.inBounds s.params = true
  input : InputInv s
  status : StatusInv s
  window : WindowInv s
  element : ElementInv s
  row : RowInv s
  palette : PaletteInv s

end Sys2Proof.Machine
end

