-- ==== Sys2Proof/Certificates/Slice0/Obligations.lean ====
section
/-! DEFINITION. The statements for the provers, from the spec's numbered rules. Where a statement speaks of the remaining
stream it asks for `8 * CLEN < 2 ^ 64`, the bound of R12 (U9). -/

open Sys2Proof Sys2Proof.Machine

/-! ### Encoding -/

/-- R89: every row is the row that its own word selects; no open bit of a row is dropped. -/
def Obligations.DecodeOfEncode : Prop :=
  ∀ i : Instr, i.wf = true → decode (encode i).1 (encode i).2 = .ok i

/-- R89: a word selects one row only, and that row's own word is the word decoded; and which words have a row: everything that
fits the width, but for the symbol numbers that no alphabet has (R76, R77) and the INF_STATE values that select no row of the
three formats without bits (R13; log 2). -/
def Obligations.EncodeOfDecode : Prop :=
  (∀ (f : Format) (w : Nat) (i : Instr), decode f w = .ok i → i.wf = true ∧ encode i = (f, w))
  ∧ (∀ (f : Format) (w : Nat), (∃ i, decode f w = .ok i) ↔
    (w < 2 ^ f.width ∧ (f = .clsym → w ≤ 18) ∧ (f = .llsym → w ≤ 287) ∧ (f = .stored → w = 2 ∨ w = 3)
      ∧ (f = .dynhdr → w = 4) ∧ (f = .micro → w = 7 ∨ w = 8)))

/-- A few words written out from the tables of 30_encoding, one of every family. -/
def Obligations.SampleWordsDecode : Prop :=
  decode .zhdr 0x9C78 = .ok (.zhdr 0x78 0x9C) ∧ decode .blkhdr 0b011 = .ok (.blkFixed true)
    ∧ decode .clsym 16 = .ok .cl16 ∧ decode .llsym 0x41 = .ok (.lit 0x41) ∧ decode .llsym 256 = .ok .eob
    ∧ decode .llsym 265 = .ok .len265 ∧ decode .dsym 29 = .ok .dist29 ∧ decode .ftag 4 = .ok .filtPaeth
    ∧ decode .pixfmt 0x0208 = .ok .pixRgb8 ∧ decode .cmd 3 = .ok .start ∧ decode .rowans 1 = .ok .answerStop

/-! ### The bit reader and the Huffman decoder -/

/-- R42 with R41: the value, its bit order, the new IPOS, the three ways out. -/
def Obligations.ReadBitsTakesTheNextBits : Prop :=
  ∀ (n : Nat) (s : State), n ≤ 16 → 8 * s.env.cin.length < 2 ^ 64 →
    (s.inf.ipos.toNat + n ≤ 8 * s.env.cin.length →
      ∃ v t, readBits n s = .ok (v, t) ∧ v < 2 ^ n
        ∧ (∀ i, i < n → v.testBit i
            = (s.env.cin.getD ((s.inf.ipos.toNat + i) / 8) 0).getLsbD ((s.inf.ipos.toNat + i) % 8))
        ∧ t.inf.ipos.toNat = s.inf.ipos.toNat + n ∧ t = s.setInf { s.inf with ipos := t.inf.ipos })
    ∧ (8 * s.env.cin.length < s.inf.ipos.toNat + n → 0 < n → s.env.cinEnd = true →
        readBits n s = .error (.raise .truncated))
    ∧ readBits 0 s = .ok (0, s)

/-- R133 with R44: the bits of a symbol's canonical code, most significant first, are read back as that symbol, and exactly
those bits are consumed. For every set of code lengths that is not over-subscribed. -/
def Obligations.DecodeSymReadsCanonicalCodes : Prop :=
  ∀ (lens : List Nat) (sym k : Nat) (s : State),
    (∀ l ∈ lens, l ≤ 15) → kraft lens ≤ 2 ^ 15 → lens[sym]? = some k → 0 < k →
    8 * s.env.cin.length < 2 ^ 64 → s.inf.ipos.toNat + k ≤ 8 * s.env.cin.length →
    (∀ j, j < k → cinBit s.env.cin (s.inf.ipos.toNat + j) = (canonCode lens sym).testBit (k - 1 - j)) →
    decodeSym lens s = .ok (sym, advance k s)

/-- R133: the pseudocode with its search and the form that needs no search are the same function, for all code lengths and in
every state. -/
def Obligations.SearchFreeDecodeIsTheSearch : Prop :=
  ∀ (lens : List Nat) (s : State), decodeSym lens s = decodeSymBySearchFrom lens 15 1 0 s

/-- R134: with 15 bits at hand `DecodeSym` answers a symbol or HUFF_NOCODE, with a complete code always a symbol, with an
empty code always HUFF_NOCODE. -/
def Obligations.NoCodeOnlyInIncompleteCodes : Prop :=
  ∀ (lens : List Nat) (s : State), (∀ l ∈ lens, l ≤ 15) → 8 * s.env.cin.length < 2 ^ 64 →
    s.inf.ipos.toNat + 15 ≤ 8 * s.env.cin.length →
    ((∃ r, decodeSym lens s = .ok r) ∨ decodeSym lens s = .error (.raise .huffNocode))
    ∧ (kraft lens = 2 ^ 15 → ∃ r, decodeSym lens s = .ok r)
    ∧ (kraft lens = 0 → decodeSym lens s = .error (.raise .huffNocode))

/-- R131: over-subscribed, complete, empty and single-code sets, by the code space used. -/
def Obligations.CheckLengthsByCodeSpace : Prop :=
  ∀ (lens : List Nat) (kind : CodeKind), (∀ l ∈ lens, l ≤ 15) →
    (checkLengths lens kind = .error (.raise .huffOversubscribed) ↔ 2 ^ 15 < kraft lens)
    ∧ (checkLengths lens kind = .ok () ↔
        kraft lens = 0 ∨ kraft lens = 2 ^ 15 ∨ (kraft lens < 2 ^ 15 ∧ kind ≠ .cl ∧ maxLength lens = 1))
    ∧ (checkLengths lens kind = .error (.raise .huffIncomplete) ↔
        0 < kraft lens ∧ kraft lens < 2 ^ 15 ∧ (kind = .cl ∨ maxLength lens ≠ 1))

/-- R80: the code values of the fixed tables. -/
def Obligations.FixedCodeValues : Prop :=
  (∀ i, i < 288 → fixedLitLens[i]? = some (if i < 144 then 8 else if i < 256 then 9 else if i < 280 then 7 else 8))
    ∧ (∀ i, i < 144 → canonCode fixedLitLens i = 0x30 + i)
    ∧ (∀ i, 144 ≤ i → i < 256 → canonCode fixedLitLens i = 0x190 + (i - 144))
    ∧ (∀ i, 256 ≤ i → i < 280 → canonCode fixedLitLens i = i - 256)
    ∧ (∀ i, 280 ≤ i → i < 288 → canonCode fixedLitLens i = 0xC0 + (i - 280))
    ∧ (∀ i, i < 32 → fixedDistLens[i]? = some 5 ∧ canonCode fixedDistLens i = i)

/-! ### Stream header, block headers, stored blocks, dynamic tables -/

/-- R100: the four checks and what follows; where CMF and FLG come from; TRUNCATED. -/
def Obligations.ZlibHeaderIsChecked : Prop :=
  (∀ (cmf flg : Byte) (s : State),
    (cmf.toNat % 16 = 8 ∧ cmf.toNat / 16 ≤ 7 ∧ (cmf.toNat * 256 + flg.toNat) % 31 = 0 ∧ flg.getLsbD 5 = false →
      exec (.zhdr cmf flg) s = .next (s.setInf { s.inf with infState := .blkhdr }))
    ∧ (¬ (cmf.toNat % 16 = 8 ∧ cmf.toNat / 16 ≤ 7 ∧ (cmf.toNat * 256 + flg.toNat) % 31 = 0 ∧ flg.getLsbD 5 = false) →
      exec (.zhdr cmf flg) s = .next (trapEntry .decodeError .zlibHeader s)))
  ∧ (∀ s : State, s.inf.infState = .zhdr → 8 * s.env.cin.length < 2 ^ 64 →
    (s.inf.ipos.toNat + 16 ≤ 8 * s.env.cin.length →
      coreStep s = exec (.zhdr (BitVec.ofNat 8 (nextBits 8 s)) (BitVec.ofNat 8 (nextBits 8 (advance 8 s)))) (advance 16 s))
    ∧ (8 * s.env.cin.length < s.inf.ipos.toNat + 16 → s.env.cinEnd = true →
      coreStep s = .next (trapEntry .decodeError .truncated s)))

/-- R101, R104, R106: the block header's fields, the four block types, the fixed tables, TRUNCATED. -/
def Obligations.BlockHeaderStartsABlock : Prop :=
  (∀ (final : Bool) (s : State),
    exec (.blkStored final) s = .next (s.setInf { s.inf with bfinal := final, btype := 0, infState := .storedHdr })
    ∧ (∃ t, exec (.blkFixed final) s = .next t
        ∧ t = s.setInf { s.inf with
            bfinal := final, btype := 1, llLen := t.inf.llLen, dLen := t.inf.dLen, infState := .sym }
        ∧ (∀ i, i < 288 → t.inf.llLen.toList[i]?
            = some (if i ≤ 143 then 8 else if i ≤ 255 then 9 else if i ≤ 279 then 7 else 8))
        ∧ (∀ i, i < 32 → t.inf.dLen.toList[i]? = some 5))
    ∧ exec (.blkDynamic final) s = .next (s.setInf { s.inf with bfinal := final, btype := 2, infState := .dynHdr })
    ∧ exec (.blkReserved final) s = .next (trapEntry .decodeError .blockType s))
  ∧ (∀ s : State, s.inf.infState = .blkhdr → 8 * s.env.cin.length < 2 ^ 64 →
    (s.inf.ipos.toNat + 3 ≤ 8 * s.env.cin.length → ∀ final, final = (nextBits 1 s == 1) →
      (nextBits 2 (advance 1 s) = 0 → coreStep s = exec (.blkStored final) (advance 3 s))
      ∧ (nextBits 2 (advance 1 s) = 1 → coreStep s = exec (.blkFixed final) (advance 3 s))
      ∧ (nextBits 2 (advance 1 s) = 2 → coreStep s = exec (.blkDynamic final) (advance 3 s))
      ∧ (nextBits 2 (advance 1 s) = 3 → coreStep s = exec (.blkReserved final) (advance 3 s)))
    ∧ (8 * s.env.cin.length < s.inf.ipos.toNat + 3 → s.env.cinEnd = true →
      coreStep s = .next (trapEntry .decodeError .truncated s)))

/-- R102, R43, R109: alignment, LEN and NLEN, the complement check, the empty stored block, TRUNCATED. -/
def Obligations.StoredHeaderAlignsAndChecks : Prop :=
  ∀ s a : State, 8 * s.env.cin.length < 2 ^ 64 → s.inf.ipos.toNat ≤ 8 * s.env.cin.length → a = alignByte s →
    (a.inf.ipos.toNat = divUp s.inf.ipos.toNat 8 * 8 ∧ a = s.setInf { s.inf with ipos := a.inf.ipos })
    ∧ (a.inf.ipos.toNat + 32 ≤ 8 * s.env.cin.length →
      (nextBits 16 a ≠ nextBits 16 (advance 16 a) ^^^ 0xFFFF →
        exec .storedHdr s = .next (trapEntry .decodeError .storedNlen s))
      ∧ (nextBits 16 a = nextBits 16 (advance 16 a) ^^^ 0xFFFF →
        exec .storedHdr s = .next ((advance 32 a).setInf { (advance 32 a).inf with
          storedRem := BitVec.ofNat 16 (nextBits 16 a)
          infState := if nextBits 16 a ≠ 0 then .storedByte else if s.inf.bfinal then .ended else .blkhdr })))
    ∧ (8 * s.env.cin.length < a.inf.ipos.toNat + 32 → s.env.cinEnd = true →
      exec .storedHdr s = .next (trapEntry .decodeError .truncated s))

/-- R105 with R324: the counts, the order of the code-length lengths, the two checks in their order, what is set up, and
TRUNCATED in the counts (before they are checked) and in the lengths. -/
def Obligations.DynamicHeaderReadsCodeLengths : Prop :=
  ∀ (s : State) (hlit hdist hclen : Nat), 8 * s.env.cin.length < 2 ^ 64 →
    hlit = nextBits 5 s → hdist = nextBits 5 (advance 5 s) → hclen = nextBits 4 (advance 10 s) →
    (8 * s.env.cin.length < s.inf.ipos.toNat + 14 → s.env.cinEnd = true →
      exec .dynHdr s = .next (trapEntry .decodeError .truncated s))
    ∧ (s.inf.ipos.toNat + 14 ≤ 8 * s.env.cin.length → 286 < hlit + 257 ∨ 30 < hdist + 1 →
      exec .dynHdr s = .next (trapEntry .decodeError .dynCounts s))
    ∧ (hlit + 257 ≤ 286 ∧ hdist + 1 ≤ 30 →
      (s.inf.ipos.toNat + 14 + 3 * (hclen + 4) ≤ 8 * s.env.cin.length →
        ∃ file : Vector (BitVec 3) 19,
          (∀ i, i < 19 → file.toList[clOrder.getD i 0]?
            = some (if i < hclen + 4 then BitVec.ofNat 3 (nextBits 3 (advance (14 + 3 * i) s)) else 0))
          ∧ (checkLengths (fileLens file) .cl = .ok () →
            exec .dynHdr s = .next ((advance (14 + 3 * (hclen + 4)) s).setInf
              { (advance (14 + 3 * (hclen + 4)) s).inf with
                nlen := BitVec.ofNat 9 (hlit + 257)
                ndist := BitVec.ofNat 6 (hdist + 1)
                ncode := BitVec.ofNat 5 (hclen + 4)
                clLen := file
                lens := Vector.replicate 316 0
                lidx := 0
                infState := .clSym }))
          ∧ (∀ c, checkLengths (fileLens file) .cl = .error (.raise c) →
            exec .dynHdr s = .next (trapEntry .decodeError c s)))
      ∧ (s.inf.ipos.toNat + 14 ≤ 8 * s.env.cin.length →
        8 * s.env.cin.length < s.inf.ipos.toNat + 14 + 3 * (hclen + 4) → s.env.cinEnd = true →
        exec .dynHdr s = .next (trapEntry .decodeError .truncated s)))

/-- R110 to R113 (with R107): the code-length symbols, each before the last length: what each appends and how often, the two
errors of the repeats, TRUNCATED. -/
def Obligations.CodeLengthSymbolsAppend : Prop :=
  (∀ (i : Instr) (n rep : Nat) (v : BitVec 4) (s : State), AppendsLengths i s n rep v →
    8 * s.env.cin.length < 2 ^ 64 → s.inf.nlen.toNat + s.inf.ndist.toNat ≤ 316 →
    s.inf.lidx.toNat < s.inf.nlen.toNat + s.inf.ndist.toNat →
    (s.inf.ipos.toNat + n ≤ 8 * s.env.cin.length →
      (s.inf.lidx.toNat + rep < s.inf.nlen.toNat + s.inf.ndist.toNat →
        ∃ t, exec i s = .next t ∧ LengthsAppended n rep v s t)
      ∧ (s.inf.nlen.toNat + s.inf.ndist.toNat < s.inf.lidx.toNat + rep →
        exec i s = .next (trapEntry .decodeError .clRepeatOverrun s)))
    ∧ (8 * s.env.cin.length < s.inf.ipos.toNat + n → 0 < n → s.env.cinEnd = true →
      exec i s = .next (trapEntry .decodeError .truncated s)))
  ∧ (∀ s : State, s.inf.lidx = 0 → exec .cl16 s = .next (trapEntry .decodeError .clRepeatNoprev s))

/-- R108 (with R107): the symbol that completes the sequence builds both tables, after its three checks in order. For all
nineteen symbols. -/
def Obligations.LastLengthCompletesTheTables : Prop :=
  ∀ (i : Instr) (n rep : Nat) (v : BitVec 4) (s : State), AppendsLengths i s n rep v →
    8 * s.env.cin.length < 2 ^ 64 → s.inf.nlen.toNat + s.inf.ndist.toNat ≤ 316 →
    s.inf.ipos.toNat + n ≤ 8 * s.env.cin.length →
    s.inf.lidx.toNat + rep = s.inf.nlen.toNat + s.inf.ndist.toNat →
    ∃ u, LengthsAppended n rep v s u
      ∧ (u.inf.lens.toList.getD 256 0 = 0 → exec i s = .next (trapEntry .decodeError .noEobCode s))
      ∧ (u.inf.lens.toList.getD 256 0 ≠ 0 →
        ∃ (ll : Vector (BitVec 4) 288) (d : Vector (BitVec 4) 32),
          (∀ j, j < 288 → ll.toList.getD j 0 = if j < s.inf.nlen.toNat then u.inf.lens.toList.getD j 0 else 0)
          ∧ (∀ j, j < 32 → d.toList.getD j 0
              = if j < s.inf.ndist.toNat then u.inf.lens.toList.getD (s.inf.nlen.toNat + j) 0 else 0)
          ∧ (∀ c, checkLengths (fileLens ll) .ll = .error (.raise c) → exec i s = .next (trapEntry .decodeError c s))
          ∧ (checkLengths (fileLens ll) .ll = .ok () →
            (∀ c, checkLengths (fileLens d) .d = .error (.raise c) → exec i s = .next (trapEntry .decodeError c s))
            ∧ (checkLengths (fileLens d) .d = .ok () →
              exec i s = .next (u.setInf { u.inf with llLen := ll, dLen := d, infState := .sym }))))

/-! ### Symbols and the dictionary -/

/-- R142, R103, R148 with R140, R222, R48: a literal, a stored byte or a match byte in the middle of a row: what the row does to
INF, the byte, where it goes, and that nothing else changes; TRUNCATED for the stored byte. -/
def Obligations.BytesAreEmittedInMidRow : Prop :=
  (∀ (i : Instr) (b : Byte) (s u : State), Emits i b s u → 8 * s.env.cin.length < 2 ^ 64 →
    s.flt.rphase = .data → s.flt.rx + 1 ≠ s.flt.pstride →
    ∃ t, exec i s = .next t ∧ EmittedMidRow b u t)
  ∧ (∀ s : State, 8 * s.env.cin.length < s.inf.ipos.toNat + 8 → s.env.cinEnd = true →
    exec .storedByte s = .next (trapEntry .decodeError .truncated s))

/-- R149: a match whose distance is smaller than its length repeats its last `dist` bytes periodically. Read in the current
row, for a match that ends inside it. -/
def Obligations.OverlappingCopyIsPeriodic : Prop :=
  ∀ (n d : Nat) (s : State), s.inf.wpos < s.params.wsize → d = s.inf.matchDist.toNat → 1 ≤ d → d ≤ s.params.wsize →
    n ≤ s.inf.matchLen.toNat → s.flt.rphase = .data → s.flt.rx + n < s.flt.pstride →
    ∃ t, repeatExec .matchByte n s = .next t
      ∧ ∀ k, k < n → t.curRow.read (s.flt.rx + k)
          = s.mem.win.read ((s.inf.wpos + s.params.wsize - d + k % d) % s.params.wsize)

/-- R143 with R109. -/
def Obligations.EndOfBlockSymbolLeavesTheBlock : Prop :=
  ∀ s : State, exec .eob s = .next (s.setInf { s.inf with infState := if s.inf.bfinal then .ended else .blkhdr })

/-- R145 with R78: the 29 length symbols; TRUNCATED on the extra field. -/
def Obligations.LengthSymbolSetsMatchLength : Prop :=
  ∀ (sym base n : Nat) (i : Instr) (s : State), decode .llsym sym = .ok i → lengthTable[sym - 257]? = some (base, n) →
    257 ≤ sym → 8 * s.env.cin.length < 2 ^ 64 →
    (s.inf.ipos.toNat + n ≤ 8 * s.env.cin.length →
      exec i s = .next ((advance n s).setInf
        { (advance n s).inf with matchLen := BitVec.ofNat 9 (base + nextBits n s) }))
    ∧ (8 * s.env.cin.length < s.inf.ipos.toNat + n → 0 < n → s.env.cinEnd = true →
      exec i s = .next (trapEntry .decodeError .truncated s))

/-- R147 with R79: the 30 distance symbols, the distance check, TRUNCATED on the extra field. -/
def Obligations.DistanceSymbolSetsMatchDistance : Prop :=
  ∀ (sym base n : Nat) (i : Instr) (s : State), decode .dsym sym = .ok i → distanceTable[sym]? = some (base, n) →
    8 * s.env.cin.length < 2 ^ 64 →
    (s.inf.ipos.toNat + n ≤ 8 * s.env.cin.length →
      (base + nextBits n s ≤ s.inf.hist →
        exec i s = .next ((advance n s).setInf { (advance n s).inf with
          matchDist := BitVec.ofNat 16 (base + nextBits n s), infState := .matchByte }))
      ∧ (s.inf.hist < base + nextBits n s → exec i s = .next (trapEntry .decodeError .distanceTooFar s)))
    ∧ (8 * s.env.cin.length < s.inf.ipos.toNat + n → 0 < n → s.env.cinEnd = true →
      exec i s = .next (trapEntry .decodeError .truncated s))

/-- R78, R79, R81: base and extra bits of every length and distance symbol in closed form, their ranges, and that the
distances 1 to 32768 are each expressed once. -/
def Obligations.LengthAndDistanceTables : Prop :=
  (∀ k base n, lengthTable[k]? = some (base, n) →
    (k < 8 → base = 3 + k ∧ n = 0) ∧ (8 ≤ k → k < 28 → n = k / 4 - 1 ∧ base = 3 + (4 + k % 4) * 2 ^ n)
      ∧ (k = 28 → base = 258 ∧ n = 0) ∧ 3 ≤ base ∧ base + 2 ^ n - 1 ≤ 258)
  ∧ (∀ k base n, distanceTable[k]? = some (base, n) →
    (k < 4 → base = 1 + k ∧ n = 0) ∧ (4 ≤ k → n = k / 2 - 1 ∧ base = 1 + (2 + k % 2) * 2 ^ n))
  ∧ (∀ d, 1 ≤ d → d ≤ 32768 →
    ∃! p : Nat × Nat, ∃ base n, distanceTable[p.1]? = some (base, n) ∧ p.2 < 2 ^ n ∧ d = base + p.2)

/-- R144, R146, R301: the reserved symbols 286 and 287, the reserved distances 30 and 31, and the step in END. -/
def Obligations.ReservedSymbolsAndEndRaise : Prop :=
  ∀ s : State,
    exec .ll286 s = .next (trapEntry .decodeError .lengthSymbol s)
    ∧ exec .ll287 s = .next (trapEntry .decodeError .lengthSymbol s)
    ∧ exec .dist30 s = .next (trapEntry .decodeError .distanceSymbol s)
    ∧ exec .dist31 s = .next (trapEntry .decodeError .distanceSymbol s)
    ∧ exec .endStep s = .next (trapEntry .decodeError .dataEndedEarly s)
    ∧ (s.inf.infState = .ended → coreStep s = .next (trapEntry .decodeError .dataEndedEarly s))

/-- R141, R145 with R324: a whole SYM step, by the symbol that the literal/length code gives. A literal or the end of the block
runs its row. A length symbol goes on with its extra bits, the distance code and the distance's extra bits, and each failure
is reported in that order; then the match is pending, and no byte is emitted. -/
def Obligations.SymStepTakesAWholeMatch : Prop :=
  ∀ s : State, s.inf.infState = .sym → s.drv.dstate = .decoding → 8 * s.env.cin.length < 2 ^ 64 →
    (∀ c, decodeSym (fileLens s.inf.llLen) s = .error (.raise c) → coreStep s = .next (trapEntry .decodeError c s))
    ∧ ∀ sym s1, decodeSym (fileLens s.inf.llLen) s = .ok (sym, s1) →
      (sym ≤ 255 → coreStep s = exec (.lit (BitVec.ofNat 8 sym)) s1)
      ∧ (sym = 256 → coreStep s = exec .eob s1)
      ∧ (286 ≤ sym → coreStep s = .next (trapEntry .decodeError .lengthSymbol s))
      ∧ ∀ base n, 257 ≤ sym → lengthTable[sym - 257]? = some (base, n) →
        (8 * s.env.cin.length < s1.inf.ipos.toNat + n → 0 < n → s.env.cinEnd = true →
          coreStep s = .next (trapEntry .decodeError .truncated s))
        ∧ (s1.inf.ipos.toNat + n ≤ 8 * s.env.cin.length →
          (∀ c, decodeSym (fileLens s.inf.dLen) (advance n s1) = .error (.raise c) →
            coreStep s = .next (trapEntry .decodeError c s))
          ∧ ∀ t s2, decodeSym (fileLens s.inf.dLen) (advance n s1) = .ok (t, s2) →
            (30 ≤ t → coreStep s = .next (trapEntry .decodeError .distanceSymbol s))
            ∧ ∀ dbase dn, distanceTable[t]? = some (dbase, dn) →
              (8 * s.env.cin.length < s2.inf.ipos.toNat + dn → 0 < dn → s.env.cinEnd = true →
                coreStep s = .next (trapEntry .decodeError .truncated s))
              ∧ (s2.inf.ipos.toNat + dn ≤ 8 * s.env.cin.length →
                (s.inf.hist < dbase + nextBits dn s2 → coreStep s = .next (trapEntry .decodeError .distanceTooFar s))
                ∧ (dbase + nextBits dn s2 ≤ s.inf.hist →
                  coreStep s = .next ((advance dn s2).setInf { (advance dn s2).inf with
                    matchLen := BitVec.ofNat 9 (base + nextBits n s1)
                    matchDist := BitVec.ofNat 16 (dbase + nextBits dn s2)
                    infState := .matchByte }))))

/-! ### Rows: filters, reconstruction, passes -/

/-- R221, R229 with R82: the filter tag. -/
def Obligations.FilterTagStartsARow : Prop :=
  ∀ (b : Byte) (s : State),
    (b.toNat ≤ 4 → exec (decodeFtag b) s
        = .next (s.setFlt { s.flt with ftype := BitVec.ofNat 3 b.toNat, rphase := .data, rx := 0 }))
    ∧ (4 < b.toNat → exec (decodeFtag b) s = .next (trapEntry .decodeError .filterType s))

/-- R221, R140: a byte emitted where a tag is due enters the window and then runs its filter row. -/
def Obligations.EmittedTagRunsItsFilter : Prop :=
  ∀ (i : Instr) (b : Byte) (s v : State), Emits i b s v → 8 * s.env.cin.length < 2 ^ 64 → s.flt.rphase = .tag →
    ∃ u, exec i s = exec (decodeFtag b) u ∧ InWindow b v u ∧ u.flt = s.flt ∧ u.curRow = s.curRow

/-- R223: every byte of the completed row is its filtered byte plus the prediction from its reconstructed left neighbour and
the previous row, modulo 256; the previous row and everything beyond the row stay. -/
def Obligations.ReconstructionFollowsTheFilter : Prop :=
  ∀ (ftype : BitVec 3) (fbpp n : Nat) (prev cur : Cells 8), 1 ≤ fbpp →
    (∀ x, x < n → (reconstruct ftype fbpp prev n cur).read x
      = cur.read x + pred ftype
          (if fbpp ≤ x then (reconstruct ftype fbpp prev n cur).read (x - fbpp) else 0)
          (prev.read x)
          (if fbpp ≤ x then prev.read (x - fbpp) else 0))
    ∧ (∀ x, n ≤ x → (reconstruct ftype fbpp prev n cur).read x = cur.read x)

/-- R224 to R228, R230, R231: the five predictors on exact integers. -/
def Obligations.PredictorsAreExact : Prop :=
  ∀ a b c : Byte,
    pred 0 a b c = 0 ∧ pred 1 a b c = a ∧ pred 2 a b c = b
    ∧ (pred 3 a b c).toNat = (a.toNat + b.toNat) / 2
    ∧ (pred 4 a b c = a ∨ pred 4 a b c = b ∨ pred 4 a b c = c)
    ∧ (∀ v : Byte, v = a ∨ v = b ∨ v = c →
        (((a.toNat : Int) + b.toNat - c.toNat) - (pred 4 a b c).toNat).natAbs
          ≤ (((a.toNat : Int) + b.toNat - c.toNat) - v.toNat).natAbs)
    ∧ ((∀ v : Byte, v = b ∨ v = c →
        (((a.toNat : Int) + b.toNat - c.toNat) - a.toNat).natAbs
          ≤ (((a.toNat : Int) + b.toNat - c.toNat) - v.toNat).natAbs) → pred 4 a b c = a)
    ∧ (pred 4 a b c ≠ a →
        (((a.toNat : Int) + b.toNat - c.toNat) - b.toNat).natAbs
          ≤ (((a.toNat : Int) + b.toNat - c.toNat) - c.toNat).natAbs → pred 4 a b c = b)

/-- R237 c: reconstructing a filtered row gives the raw row back, and filtering the reconstructed row again gives the filtered
row back. `raw` and `cur` are related by the forward filter. -/
def Obligations.UnfilterInvertsFilter : Prop :=
  ∀ (ftype : BitVec 3) (fbpp n : Nat) (prev raw cur : Cells 8), 1 ≤ fbpp →
    ((∀ x, x < n → cur.read x = raw.read x - predAt ftype fbpp prev raw x) →
      ∀ x, x < n → (reconstruct ftype fbpp prev n cur).read x = raw.read x)
    ∧ (∀ x, x < n → (reconstruct ftype fbpp prev n cur).read x
        - predAt ftype fbpp prev (reconstruct ftype fbpp prev n cur) x = cur.read x)

/-- R222, R223, R280: the byte that completes a row: the window and the row take it, the row is reconstructed, and the image's
pixel format then runs on the reconstructed row. -/
def Obligations.LastByteCompletesTheRow : Prop :=
  ∀ (i : Instr) (b : Byte) (s v : State), Emits i b s v → 8 * s.env.cin.length < 2 ^ 64 → s.flt.rphase = .data →
    s.flt.rx + 1 = s.flt.pstride →
    ∃ u row, exec i s = exec (decodePixfmt s.drv.colortype s.drv.bitdepth) u ∧ InWindow b v u
      ∧ (∀ x, row.read x = if x = s.flt.rx then b else s.curRow.read x)
      ∧ u.curRow = reconstruct s.flt.ftype (max 1 (divUp s.drv.bpx 8)) s.prevRow s.flt.pstride row
      ∧ u.flt = { s.flt with rx := s.flt.pstride }

/-- R234, R235, R237 b: over the seven passes every pixel of an image is covered exactly once. -/
def Obligations.PassesPartitionTheImage : Prop :=
  ∀ (d : Drv) (col row : Nat), col < d.width.toNat → row < d.height.toNat →
    ∃! p : Nat × Nat × Nat, 1 ≤ p.1 ∧ p.1 ≤ 7 ∧ p.2.1 < passWidth d p.1 ∧ p.2.2 < passHeight d p.1
      ∧ col = (passGeometry p.1).xo + p.2.1 * (passGeometry p.1).xs
      ∧ row = (passGeometry p.1).yo + p.2.2 * (passGeometry p.1).ys

/-! ### Pixel formats -/

/-- R263 to R266 with R250 to R252, R255, R262, R280: the four greyscale formats. -/
def Obligations.GreyscaleRowsAreConverted : Prop :=
  ∀ (i : Instr) (d : Nat) (s : State),
    (i = .pixG1 ∧ d = 1) ∨ (i = .pixG2 ∧ d = 2) ∨ (i = .pixG4 ∧ d = 4) ∨ (i = .pixG8 ∧ d = 8) →
    ∃ r, exec i s = .next (presented r s) ∧ RecordTags s r
      ∧ r.pixels = (List.range s.flt.pw.toNat).flatMap fun k =>
          BitVec.ofNat 8 (sampleNat s.curRow k d * 255 / (2 ^ d - 1))
            :: (if s.params.applyColorKey = true ∧ s.pix.trnsValid = true
                then [if sampleNat s.curRow k d = s.pix.trnsGray.toNat then 0 else 255] else [])

/-- R268 to R271 with R253, R254, R255, R280: the four indexed formats. -/
def Obligations.IndexedRowsAreConverted : Prop :=
  ∀ (i : Instr) (d : Nat) (s : State),
    (i = .pixI1 ∧ d = 1) ∨ (i = .pixI2 ∧ d = 2) ∨ (i = .pixI4 ∧ d = 4) ∨ (i = .pixI8 ∧ d = 8) →
    ∃ r, exec i s = .next (presented r s) ∧ RecordTags s r
      ∧ r.pixels = (List.range s.flt.pw.toNat).flatMap fun k =>
          [BitVec.ofNat 8 ((s.mem.pal.read (sampleNat s.curRow k d)).toNat / 65536),
            BitVec.ofNat 8 ((s.mem.pal.read (sampleNat s.curRow k d)).toNat / 256),
            BitVec.ofNat 8 (s.mem.pal.read (sampleNat s.curRow k d)).toNat]
          ++ (if s.pix.trnsValid = true
              then [if sampleNat s.curRow k d = s.pix.trnsIndex.toNat then 0 else 255] else [])

/-- R267, R272, R273 with R255, R262, R280: the three formats of 8-bit samples that are passed through. -/
def Obligations.PassedThroughRowsAreConverted : Prop :=
  ∀ s : State,
    (∃ r, exec .pixRgb8 s = .next (presented r s) ∧ RecordTags s r
      ∧ r.pixels = (List.range s.flt.pw.toNat).flatMap fun k =>
          [s.curRow.read (3 * k), s.curRow.read (3 * k + 1), s.curRow.read (3 * k + 2)]
          ++ (if s.params.applyColorKey = true ∧ s.pix.trnsValid = true
              then [if (s.curRow.read (3 * k)).toNat = s.pix.trnsR.toNat
                      ∧ (s.curRow.read (3 * k + 1)).toNat = s.pix.trnsG.toNat
                      ∧ (s.curRow.read (3 * k + 2)).toNat = s.pix.trnsB.toNat then 0 else 255] else []))
    ∧ (∃ r, exec .pixGa8 s = .next (presented r s) ∧ RecordTags s r
      ∧ r.pixels = (List.range s.flt.pw.toNat).flatMap fun k =>
          [s.curRow.read (2 * k), s.curRow.read (2 * k + 1)])
    ∧ (∃ r, exec .pixRgba8 s = .next (presented r s) ∧ RecordTags s r
      ∧ r.pixels = (List.range s.flt.pw.toNat).flatMap fun k =>
          [s.curRow.read (4 * k), s.curRow.read (4 * k + 1), s.curRow.read (4 * k + 2), s.curRow.read (4 * k + 3)])

/-- R256, R282 a: padding bits are ignored: two rows that agree on the first BPX × PW bits deliver the same record; and the
record has PW × OCH bytes. -/
def Obligations.PaddingBitsAreIgnored : Prop :=
  ∀ (s : State) (row : Cells 8), s.drv.converted = true →
    (∀ k, k < s.drv.bpx * s.flt.pw.toNat → rowBit row k = rowBit s.curRow k) →
    ∃ r, exec (decodePixfmt s.drv.colortype s.drv.bitdepth) s = .next (presented r s)
      ∧ exec (decodePixfmt s.drv.colortype s.drv.bitdepth) (s.setCurRow row) = .next (presented r (s.setCurRow row))
      ∧ r.pixels.length = s.flt.pw.toNat * s.och

/-- R274 to R278: the rows that are not converted take the trap with Unsupported(HEADER) and its CMDSTAT. -/
def Obligations.UnconvertedFormatsAreRefused : Prop :=
  ∀ (ct bd : Byte) (s : State),
    ¬ ((ct = 0 ∧ (bd = 1 ∨ bd = 2 ∨ bd = 4 ∨ bd = 8)) ∨ (ct = 2 ∧ bd = 8)
      ∨ (ct = 3 ∧ (bd = 1 ∨ bd = 2 ∨ bd = 4 ∨ bd = 8)) ∨ (ct = 4 ∧ bd = 8) ∨ (ct = 6 ∧ bd = 8)) →
    exec (decodePixfmt ct bd) s = .next ((trapEntry .unsupportedFeature .header s).setDrv
      { (trapEntry .unsupportedFeature .header s).drv with cmdstat := .unsupportedFeature })

/-! ### Commands, answers, the CFG port -/

/-- R291, R39, R361: RESET from any state, and that nothing else has a meaning before the first reset (the refusal is the
model's choice, log 6). -/
def Obligations.ResetClearsEverything : Prop :=
  (∀ s : State, ∃ t, exec .reset s = .next t
    ∧ t.inf = Inf.reset ∧ t.flt = Flt.reset ∧ t.pix = Pix.reset ∧ t.drv = Drv.reset ∧ t.mem = Memory.reset
    ∧ t.rout = none ∧ t.env.cin = [] ∧ t.env.cinEnd = false ∧ iwin t = [] ∧ t.params = s.params
    ∧ (∀ a, t.mem.win.read a = 0 ∧ t.mem.row0.read a = 0 ∧ t.mem.row1.read a = 0 ∧ t.mem.pal.read a = 0)
    ∧ t.drv.dstate.code = 0 ∧ t.inf.ipos = 0 ∧ t.inf.infState.code = 0)
  ∧ (∀ (s : State) (n : Nat) (a : EnvAct) (rest : List (Nat × EnvAct)), s.env.beenReset = false →
      s.env.inputs = (n, a) :: rest →
      (a.isReset = false → step s = .refused .beforeFirstReset)
      ∧ (a.isReset = true → step s = exec .reset (s.setInputs rest)))

/-- R292: the header check. -/
def Obligations.CommitHeaderChecksTheHeader : Prop :=
  ∀ (s : State) (ok : Prop),
    (ok ↔ (((s.drv.colortype.toNat, s.drv.bitdepth.toNat) ∈
        [(0, 1), (0, 2), (0, 4), (0, 8), (2, 8), (3, 1), (3, 2), (3, 4), (3, 8), (4, 8), (6, 8)])
      ∧ (s.drv.interlace = 0 ∨ s.drv.interlace = 1) ∧ 1 ≤ s.drv.width.toNat ∧ 1 ≤ s.drv.height.toNat
      ∧ divUp (channels s.drv.colortype * s.drv.bitdepth.toNat * s.drv.width.toNat) 8 ≤ s.params.maxStride)) →
    (s.drv.dstate ≠ .uninit →
      exec .commitHeader s = .next (s.setDrv { s.drv with cmdstat := .invalidParameter }))
    ∧ (s.drv.dstate = .uninit → ok →
      exec .commitHeader s = .next (s.setDrv { s.drv with dstate := .headerReady, cmdstat := .success }))
    ∧ (s.drv.dstate = .uninit → ¬ ok →
      exec .commitHeader s = .next ((trapEntry .unsupportedFeature .header s).setDrv
        { (trapEntry .unsupportedFeature .header s).drv with cmdstat := .unsupportedFeature }))

/-- R293 with R233, R235: START. -/
def Obligations.StartBeginsDecoding : Prop :=
  ∀ s : State,
    (s.drv.dstate ≠ .headerReady → exec .start s = .next (s.setDrv { s.drv with cmdstat := .invalidParameter }))
    ∧ (s.drv.dstate = .headerReady → 1 ≤ s.drv.width.toNat → 1 ≤ s.drv.height.toNat →
      ∃ t q, exec .start s = .next t ∧ q = (if s.drv.interlace = 0 then 0 else 1)
        ∧ t.drv = { s.drv with dstate := .decoding, cmdstat := .success }
        ∧ t.inf = { s.inf with infState := if s.drv.rawDeflate then .blkhdr else .zhdr }
        ∧ t.flt = { s.flt with
            pass := BitVec.ofNat 3 q
            pw := BitVec.ofNat 32 (divUp s.drv.width.toNat (passGeometry q).xs)
            ph := BitVec.ofNat 32 (divUp s.drv.height.toNat (passGeometry q).ys)
            pstride := divUp (s.drv.bpx * divUp s.drv.width.toNat (passGeometry q).xs) 8
            prow := 0, rphase := .tag, rx := 0 }
        ∧ (∀ x, x < s.params.maxStride → t.prevRow.read x = 0)
        ∧ t.curRow = s.curRow ∧ t.mem.win = s.mem.win ∧ t.mem.pal = s.mem.pal
        ∧ t.pix = s.pix ∧ t.rout = s.rout ∧ t.env = s.env ∧ t.params = s.params)

/-- R302: a CMD write of code 0 or 4 to 7, whatever its bits 31:3 (a), and COMMIT_HEADER and START in a wrong state (b) change
CMDSTAT only; an answer to no row changes nothing (c). -/
def Obligations.IllegalCommandsChangeOnlyStatus : Prop :=
  (∀ (data : BitVec 32) (s : State), data.toNat % 8 = 0 ∨ 4 ≤ data.toNat % 8 →
    exec (decodeCmd (data.toNat % 8)) s = .next (s.setDrv { s.drv with cmdstat := .invalidParameter })
    ∧ envAct (.cfgWrite 0 data) s = exec (decodeCmd (data.toNat % 8)) s)
  ∧ (∀ s : State,
    (s.drv.dstate ≠ .uninit → exec .commitHeader s = .next (s.setDrv { s.drv with cmdstat := .invalidParameter }))
    ∧ (s.drv.dstate ≠ .headerReady → exec .start s = .next (s.setDrv { s.drv with cmdstat := .invalidParameter }))
    ∧ (s.drv.rowPending = false → exec .answerContinue s = .next s ∧ exec .answerStop s = .next s))

/-- R299: the answer `stop`. That no record is presented any more is the model's reading (log 9). -/
def Obligations.StopEndsCleanly : Prop :=
  ∀ s : State, s.drv.rowPending = true →
    exec .answerStop s = .next ((s.setRout none).setDrv
      { s.drv with rowPending := false, stopped := true, dstate := .done })

/-- R298 with R232, R233, R235, R300: the answer `continue`: the next row, the next pass that contains pixels (the smallest
such number), or the end. That no record is presented any more is the model's reading (log 9). -/
def Obligations.ContinueAdvancesTheRow : Prop :=
  ∀ s : State, s.drv.rowPending = true →
    ∃ t, exec .answerContinue s = .next t
      ∧ t.rout = none ∧ t.inf = s.inf ∧ t.pix = s.pix ∧ t.env = s.env ∧ t.params = s.params
      ∧ t.mem.win = s.mem.win ∧ t.mem.pal = s.mem.pal
      ∧ t.flt.cursel = !s.flt.cursel ∧ t.flt.rphase = .tag ∧ t.flt.rx = 0 ∧ t.flt.ftype = s.flt.ftype
      ∧ t.curRow = s.prevRow
      ∧ (s.flt.prow + 1 ≠ s.flt.ph →
        t.flt = { s.flt with cursel := !s.flt.cursel, rphase := .tag, rx := 0, prow := s.flt.prow + 1 }
        ∧ t.prevRow = s.curRow ∧ t.drv = { s.drv with rowPending := false })
      ∧ (s.flt.prow + 1 = s.flt.ph → s.drv.interlace ≠ 1 ∨ NoNextPass s.drv (s.flt.pass.toNat + 1) →
        t.flt = { s.flt with cursel := !s.flt.cursel, rphase := .tag, rx := 0, prow := s.flt.prow + 1 }
        ∧ t.prevRow = s.curRow ∧ t.drv = { s.drv with rowPending := false, dstate := .done })
      ∧ (∀ q, s.flt.prow + 1 = s.flt.ph → s.drv.interlace = 1 → IsNextPass s.drv (s.flt.pass.toNat + 1) q →
        t.drv = { s.drv with rowPending := false }
        ∧ t.flt.pass = BitVec.ofNat 3 q ∧ t.flt.prow = 0
        ∧ t.flt.pw = BitVec.ofNat 32 (passWidth s.drv q) ∧ t.flt.ph = BitVec.ofNat 32 (passHeight s.drv q)
        ∧ t.flt.pstride = s.drv.stride (passWidth s.drv q)
        ∧ (∀ x, x < s.params.maxStride → t.prevRow.read x = 0))

/-- R294: a CFG write outside its window, or to an offset that is no writable register, changes nothing at all. -/
def Obligations.WritesOutsideTheirWindowAreIgnored : Prop :=
  ∀ (off : BitVec 11) (data : BitVec 32) (s : State), off.toNat % 4 = 0 → off ≠ 0 →
    (s.drv.dstate ≠ .uninit → 0x014 ≤ off.toNat → off.toNat ≤ 0x024 → envAct (.cfgWrite off data) s = .next s)
    ∧ (s.drv.dstate ≠ .uninit → s.drv.dstate ≠ .headerReady → envAct (.cfgWrite off data) s = .next s)
    ∧ (off.toNat < 0x010 ∨ (0x040 < off.toNat ∧ off.toNat < 0x400) → envAct (.cfgWrite off data) s = .next s)

/-- R294, R32, R24, R30: inside its window a CFG write stores the bits the register has, PAL_COUNT saturated (over all 32
written bits: the model's reading, log 20), so that a read of the register answers them (R295); every other register
answers as before, and nothing but DRV, PIX and the palette is touched. -/
def Obligations.WritesInsideTheirWindowAreStored : Prop :=
  ∀ (off : BitVec 11) (data : BitVec 32) (s : State), off.toNat % 4 = 0 →
    (s.drv.dstate = .uninit ∧ 0x010 ≤ off.toNat ∧ off.toNat ≤ 0x024)
      ∨ ((s.drv.dstate = .uninit ∨ s.drv.dstate = .headerReady)
          ∧ (off = 0x010 ∨ (0x028 ≤ off.toNat ∧ off.toNat ≤ 0x040) ∨ 0x400 ≤ off.toNat)) →
    ∃ t v, envAct (.cfgWrite off data) s = .next t
      ∧ envAct (.cfgRead off) t = .next (t.setEnv { t.env with rdata := some v })
      ∧ v.toNat
        = (if off = 0x010 ∨ off = 0x02C then data.toNat % 2
          else if off = 0x01C ∨ off = 0x020 ∨ off = 0x024 ∨ off = 0x030 then data.toNat % 256
          else if off = 0x028 then min data.toNat 256
          else if off = 0x034 ∨ off = 0x038 ∨ off = 0x03C ∨ off = 0x040 then data.toNat % 65536
          else if 0x400 ≤ off.toNat then data.toNat % 2 ^ 24
          else data.toNat)
      ∧ (∀ o : BitVec 11, o.toNat % 4 = 0 → o ≠ off →
        ∃ w, envAct (.cfgRead o) s = .next (s.setEnv { s.env with rdata := some w })
          ∧ envAct (.cfgRead o) t = .next (t.setEnv { t.env with rdata := some w }))
      ∧ t.inf = s.inf ∧ t.flt = s.flt ∧ t.mem.win = s.mem.win ∧ t.mem.row0 = s.mem.row0 ∧ t.mem.row1 = s.mem.row1
      ∧ t.rout = s.rout ∧ t.env = s.env ∧ t.params = s.params

/-- R295, R32: a CFG read answers the register's value and changes nothing of the core. FLAGS and the two halves of IPOS are
stated outside ERROR only, where R326 leaves them unspecified. -/
def Obligations.ReadsHaveNoSideEffect : Prop :=
  ∀ (off : BitVec 11) (s : State), off.toNat % 4 = 0 →
    ∃ v, envAct (.cfgRead off) s = .next (s.setEnv { s.env with rdata := some v })
      ∧ v = cfgValue s off.toNat
      ∧ (off = 0x000 → v = 0)
      ∧ (off = 0x004 → v.toNat = s.drv.dstate.code)
      ∧ (off = 0x008 → v.toNat = s.drv.errcode.code)
      ∧ (off = 0x00C → v.toNat = s.drv.cmdstat.code)
      ∧ (off = 0x010 → v.toNat = bitNat s.drv.rawDeflate)
      ∧ (off = 0x014 → v = s.drv.width)
      ∧ (off = 0x018 → v = s.drv.height)
      ∧ (off = 0x01C → v.toNat = s.drv.bitdepth.toNat)
      ∧ (off = 0x020 → v.toNat = s.drv.colortype.toNat)
      ∧ (off = 0x024 → v.toNat = s.drv.interlace.toNat)
      ∧ (off = 0x028 → v.toNat = s.pix.palCount.toNat)
      ∧ (off = 0x02C → v.toNat = bitNat s.pix.trnsValid)
      ∧ (off = 0x030 → v.toNat = s.pix.trnsIndex.toNat)
      ∧ (off = 0x034 → v.toNat = s.pix.trnsGray.toNat)
      ∧ (off = 0x038 → v.toNat = s.pix.trnsR.toNat)
      ∧ (off = 0x03C → v.toNat = s.pix.trnsG.toNat)
      ∧ (off = 0x040 → v.toNat = s.pix.trnsB.toNat)
      ∧ (off = 0x044 → v.toNat = s.drv.errcause.code)
      ∧ (off = 0x048 → s.drv.dstate ≠ .error →
          v.getLsbD 0 = s.inf.bfinal ∧ v.getLsbD 1 = s.drv.stopped ∧ v.getLsbD 2 = s.drv.rowPending
          ∧ v.toNat / 8 % 4 = s.inf.btype.toNat ∧ v.toNat / 32 % 8 = 0 ∧ v.toNat / 256 % 16 = s.inf.infState.code
          ∧ v.toNat / 4096 = s.flt.pass.toNat)
      ∧ (off = 0x04C → s.drv.dstate ≠ .error → v.toNat = s.inf.ipos.toNat % 2 ^ 32)
      ∧ (off = 0x050 → s.drv.dstate ≠ .error → v.toNat = s.inf.ipos.toNat / 2 ^ 32)
      ∧ (off = 0x054 → v = s.drv.rowcnt)
      ∧ (0x054 < off.toNat → off.toNat < 0x400 → v = 0)
      ∧ (0x400 ≤ off.toNat → v.toNat = (s.mem.pal.read ((off.toNat - 0x400) / 4)).toNat)

/-! ### Stepping -/

/-- The step runs the row that the word at IPOS selects: the core's turn is `exec` of the decoded row, on the state whose word
has been consumed, and then the input window's free draw (R296, R13, R33; log 8). A length symbol goes on with its distance
symbol (R141). -/
def Obligations.StepRunsTheDecodedRow : Prop :=
  ∀ (s s1 : State) (f : Format) (w : Nat) (i : Instr), CoreMoves s → fetchWord s = .ok (f, w, s1) →
    decode f w = .ok i →
    (i.isLength = false →
      (∀ t, exec i s1 = .next t → step s = .next (pull t))
      ∧ (∀ x, exec i s1 = .fault x → step s = .fault x))
    ∧ (i.isLength = true → ∀ t u d j s2, exec i s1 = .next t → t.drv.dstate = .decoding →
      decodeSym (fileLens t.inf.dLen) t = .ok (d, s2) → decode .dsym d = .ok j → exec j s2 = .next u →
      step s = .next (pull u))

/-- R88, R298, R299, R360, R305: a queued action whose delay is used up is the next step: a CMD write runs the row of its low
three bits, an answer runs its row, the reset input is RESET. The queue is the model's form (log 5). -/
def Obligations.StepRunsCommandsAndAnswers : Prop :=
  ∀ (s : State) (rest : List (Nat × EnvAct)), s.env.beenReset = true →
    (∀ (data : BitVec 32), s.env.inputs = (0, .cfgWrite 0 data) :: rest →
      step s = exec (decodeCmd (data.toNat % 8)) (s.setInputs rest))
    ∧ (s.env.inputs = (0, .answer 0) :: rest → step s = exec .answerContinue (s.setInputs rest))
    ∧ (s.env.inputs = (0, .answer 1) :: rest → step s = exec .answerStop (s.setInputs rest))
    ∧ (s.env.inputs = (0, .hwReset) :: rest → step s = exec .reset (s.setInputs rest))

/-- R373, R296, R297, R58: where no step is enabled and nothing is queued the machine waits, and for whom; a step that needs
more bits than have been delivered waits for the source, and raises TRUNCATED once the source has signalled the end. A hold is
the model's fault of that name (log 14). -/
def Obligations.CoreWaitsWhenNotEnabled : Prop :=
  ∀ s : State, s.env.beenReset = true → s.env.inputs = [] →
    (s.drv.dstate = .uninit ∨ s.drv.dstate = .headerReady → step s = .fault .awaitHost)
    ∧ (s.drv.dstate = .done ∨ s.drv.dstate = .error → step s = .fault .awaitReset)
    ∧ (s.drv.dstate = .decoding → s.drv.rowPending = true → step s = .fault .awaitSink)
    ∧ (s.drv.dstate = .decoding → s.drv.rowPending = false → 8 * s.env.cin.length < 2 ^ 64 →
        s.inf.ipos.toNat ≤ 8 * s.env.cin.length → NeedsBits s →
        (s.env.cinEnd = false → step s = .fault .awaitSource)
        ∧ (s.env.cinEnd = true → step s = .next (pull (trapEntry .decodeError .truncated s))))

/-- R334: the core's turn always has a meaning: every number it decodes has a row, in every state. -/
def Obligations.CoreTurnIsNeverRefused : Prop :=
  ∀ s : State, (coreTurn s).isRefused = false

/-- R326, R325, R328: taking the one trap, whichever row takes it: what is written, what stays. -/
def Obligations.TrapWritesOnlyWhatR326Says : Prop :=
  ∀ (i : Instr) (s t : State), exec i s = .next t → s.drv.dstate ≠ .error → t.drv.dstate = .error →
    t.drv.rowPending = false ∧ t.rout = none
    ∧ ((t.drv.errcode = .decodeError ∧ t.drv.errcause ≠ .noError ∧ t.drv.errcause ≠ .header
          ∧ t.drv.cmdstat = s.drv.cmdstat)
      ∨ (t.drv.errcode = .unsupportedFeature ∧ t.drv.errcause = .header ∧ t.drv.cmdstat = .unsupportedFeature))
    ∧ t.drv.stopped = s.drv.stopped ∧ t.drv.rowcnt = s.drv.rowcnt
    ∧ t.drv.width = s.drv.width ∧ t.drv.height = s.drv.height ∧ t.drv.bitdepth = s.drv.bitdepth
    ∧ t.drv.colortype = s.drv.colortype ∧ t.drv.interlace = s.drv.interlace ∧ t.drv.rawDeflate = s.drv.rawDeflate
    ∧ t.pix = s.pix ∧ t.mem.pal = s.mem.pal ∧ t.params = s.params ∧ t.env = s.env

/-- R38: no row that the compressed stream can reach writes the palette, the transparency registers, the header registers,
CTRL, STOPPED or CMDSTAT. Unless it raises it leaves DSTATE, ERRCODE and ERRCAUSE, and ROW_PENDING, ROWCNT and the record
change only together, by presenting a row (R223); if it raises, no row is presented or counted (R326). -/
def Obligations.StreamCannotWriteConfiguration : Prop :=
  ∀ (i : Instr) (s t : State), i.fromStream = true → s.drv.converted = true → exec i s = .next t →
    t.pix = s.pix ∧ t.mem.pal = s.mem.pal ∧ t.drv.cmdstat = s.drv.cmdstat ∧ t.drv.stopped = s.drv.stopped
    ∧ t.drv.width = s.drv.width ∧ t.drv.height = s.drv.height ∧ t.drv.bitdepth = s.drv.bitdepth
    ∧ t.drv.colortype = s.drv.colortype ∧ t.drv.interlace = s.drv.interlace ∧ t.drv.rawDeflate = s.drv.rawDeflate
    ∧ t.params = s.params ∧ t.env = s.env
    ∧ ((t.drv.dstate = s.drv.dstate ∧ t.drv.errcode = s.drv.errcode ∧ t.drv.errcause = s.drv.errcause
        ∧ ((t.drv.rowPending = s.drv.rowPending ∧ t.drv.rowcnt = s.drv.rowcnt ∧ t.rout = s.rout)
          ∨ ∃ r, t.drv.rowPending = true ∧ t.drv.rowcnt = s.drv.rowcnt + 1 ∧ t.rout = some r))
      ∨ (t.drv.dstate = .error ∧ t.drv.errcode = .decodeError ∧ t.drv.rowPending = false
        ∧ t.drv.rowcnt = s.drv.rowcnt ∧ t.rout = none))

/-- R290: the transitions of DSTATE and the event of each; no other step changes DSTATE. -/
def Obligations.OnlyListedEventsChangeDstate : Prop :=
  ∀ s t : State, StatusInv s → (s.drv.dstate = .decoding → s.drv.converted = true) → step s = .next t →
    t.drv.dstate ≠ s.drv.dstate →
    (t.drv.dstate = .uninit ∧ ∃ n a rest, s.env.inputs = (n, a) :: rest ∧ a.isReset = true)
    ∨ (s.drv.dstate = .uninit ∧ (t.drv.dstate = .headerReady ∨
          (t.drv.dstate = .error ∧ t.drv.errcode = .unsupportedFeature))
        ∧ ∃ n data rest, s.env.inputs = (n, .cfgWrite 0 data) :: rest ∧ data.toNat % 8 = 2)
    ∨ (s.drv.dstate = .headerReady ∧ t.drv.dstate = .decoding
        ∧ ∃ n data rest, s.env.inputs = (n, .cfgWrite 0 data) :: rest ∧ data.toNat % 8 = 3)
    ∨ (s.drv.dstate = .decoding ∧ t.drv.dstate = .error ∧ t.drv.errcode = .decodeError ∧ s.drv.rowPending = false)
    ∨ (s.drv.dstate = .decoding ∧ t.drv.dstate = .done ∧ s.drv.rowPending = true
        ∧ ∃ n bit rest, s.env.inputs = (n, .answer bit) :: rest ∧ (bit = 1 → t.drv.stopped = true))

/-- R327, R328, R371: in ERROR only a reset changes anything but the environment's side and CMDSTAT. -/
def Obligations.ErrorIsAbsorbing : Prop :=
  ∀ (s t : State) (n : Nat) (a : EnvAct) (rest : List (Nat × EnvAct)), s.drv.dstate = .error → StatusInv s →
    s.env.inputs = (n, a) :: rest → a.isReset = false → step s = .next t →
    t.drv = { s.drv with cmdstat := t.drv.cmdstat } ∧ t.inf = s.inf ∧ t.flt = s.flt ∧ t.pix = s.pix ∧ t.mem = s.mem
    ∧ t.rout = none ∧ t.env.pulled = s.env.pulled

/-- R297, R54 b: while a row is pending, until it is answered or the core is reset, the core decodes nothing, consumes no bit,
pulls nothing, and the record stays. -/
def Obligations.PendingRowHoldsTheCore : Prop :=
  ∀ (s t : State) (n : Nat) (a : EnvAct) (rest : List (Nat × EnvAct)), s.drv.dstate = .decoding →
    s.drv.rowPending = true → s.env.inputs = (n, a) :: rest → a.isReset = false → (∀ bit, a ≠ .answer bit) →
    step s = .next t →
    t.inf = s.inf ∧ t.flt = s.flt ∧ t.mem = s.mem ∧ t.pix = s.pix ∧ t.rout = s.rout ∧ t.env.pulled = s.env.pulled
    ∧ t.drv = { s.drv with cmdstat := t.drv.cmdstat }

/-- R305, R371: during DECODING no CFG access but a reset can change the course of the decode. -/
def Obligations.OnlyResetDisturbsADecode : Prop :=
  ∀ (a : EnvAct) (s t : State), s.drv.dstate = .decoding → a.isReset = false →
    (∃ off data, a = .cfgWrite off data) ∨ (∃ off, a = .cfgRead off) → envAct a s = .next t →
    t = (s.setDrv { s.drv with cmdstat := t.drv.cmdstat }).setEnv { s.env with rdata := t.env.rdata }

/-- R12, R334: a core step that does not raise moves IPOS forward, or copies one byte of a match and leaves IPOS. -/
def Obligations.EveryStepMakesProgress : Prop :=
  ∀ s t : State, InputInv s → s.drv.dstate = .decoding → coreStep s = .next t → t.drv.dstate ≠ .error →
    (s.inf.infState ≠ .matchByte ∧ s.inf.ipos.toNat < t.inf.ipos.toNat)
    ∨ (s.inf.infState = .matchByte ∧ t.inf.ipos = s.inf.ipos ∧ t.inf.matchLen = s.inf.matchLen - 1)

/-- R372, R18: the code tables change only in the header step of a fixed block and in the last step of a dynamic header. -/
def Obligations.CodeTablesChangeAtTwoPoints : Prop :=
  ∀ s t : State, coreStep s = .next t → t.drv.dstate ≠ .error →
    t.inf.llLen ≠ s.inf.llLen ∨ t.inf.dLen ≠ s.inf.dLen →
    (s.inf.infState = .blkhdr ∧ t.inf.btype = 1 ∧ t.inf.infState = .sym)
    ∨ (s.inf.infState = .clSym ∧ t.inf.infState = .sym)

/-! ### Invariants -/

/-- R47, R334: every step keeps the four memories in canonical form. -/
def Obligations.StepKeepsMemoryCanonical : Prop :=
  ∀ s t : State, s.mem.wf = true → step s = .next t → t.mem.wf = true

/-- R33, R12: every step keeps PULLED within its bounds and IPOS inside the stream. -/
def Obligations.StepKeepsInputWindow : Prop :=
  ∀ s t : State, InputInv s → step s = .next t → InputInv t

/-- R334, R48, R49, R235, R147 and the status rules: every step keeps everything that `Inv` says, in particular that no
memory holds an address outside its space. -/
def Obligations.StepKeepsInv : Prop :=
  ∀ s t : State, Inv s → step s = .next t → Inv t

/-- Right after reset, `Inv` holds. -/
def Obligations.ResetSatisfiesInv : Prop := Inv State.reset
end

