-- ==== Sys2Proof/Laws/State.lean ====
section
/-! SUPPORT. One lemma per field of `State` per named update, so that no proof unfolds a record update. -/

namespace Sys2Proof.Machine

@[simp] theorem State.setInf_params (s : State) (r : Inf) : (s.setInf r).params = s.params := rfl
@[simp] theorem State.setInf_inf (s : State) (r : Inf) : (s.setInf r).inf = r := rfl
@[simp] theorem State.setInf_flt (s : State) (r : Inf) : (s.setInf r).flt = s.flt := rfl
@[simp] theorem State.setInf_pix (s : State) (r : Inf) : (s.setInf r).pix = s.pix := rfl
@[simp] theorem State.setInf_drv (s : State) (r : Inf) : (s.setInf r).drv = s.drv := rfl
@[simp] theorem State.setInf_mem (s : State) (r : Inf) : (s.setInf r).mem = s.mem := rfl
@[simp] theorem State.setInf_rout (s : State) (r : Inf) : (s.setInf r).rout = s.rout := rfl
@[simp] theorem State.setInf_env (s : State) (r : Inf) : (s.setInf r).env = s.env := rfl
@[simp] theorem State.setInf_freeCtr (s : State) (r : Inf) : (s.setInf r).freeCtr = s.freeCtr := rfl

@[simp] theorem State.setFlt_params (s : State) (r : Flt) : (s.setFlt r).params = s.params := rfl
@[simp] theorem State.setFlt_inf (s : State) (r : Flt) : (s.setFlt r).inf = s.inf := rfl
@[simp] theorem State.setFlt_flt (s : State) (r : Flt) : (s.setFlt r).flt = r := rfl
@[simp] theorem State.setFlt_pix (s : State) (r : Flt) : (s.setFlt r).pix = s.pix := rfl
@[simp] theorem State.setFlt_drv (s : State) (r : Flt) : (s.setFlt r).drv = s.drv := rfl
@[simp] theorem State.setFlt_mem (s : State) (r : Flt) : (s.setFlt r).mem = s.mem := rfl
@[simp] theorem State.setFlt_rout (s : State) (r : Flt) : (s.setFlt r).rout = s.rout := rfl
@[simp] theorem State.setFlt_env (s : State) (r : Flt) : (s.setFlt r).env = s.env := rfl
@[simp] theorem State.setFlt_freeCtr (s : State) (r : Flt) : (s.setFlt r).freeCtr = s.freeCtr := rfl

@[simp] theorem State.setPix_params (s : State) (r : Pix) : (s.setPix r).params = s.params := rfl
@[simp] theorem State.setPix_inf (s : State) (r : Pix) : (s.setPix r).inf = s.inf := rfl
@[simp] theorem State.setPix_flt (s : State) (r : Pix) : (s.setPix r).flt = s.flt := rfl
@[simp] theorem State.setPix_pix (s : State) (r : Pix) : (s.setPix r).pix = r := rfl
@[simp] theorem State.setPix_drv (s : State) (r : Pix) : (s.setPix r).drv = s.drv := rfl
@[simp] theorem State.setPix_mem (s : State) (r : Pix) : (s.setPix r).mem = s.mem := rfl
@[simp] theorem State.setPix_rout (s : State) (r : Pix) : (s.setPix r).rout = s.rout := rfl
@[simp] theorem State.setPix_env (s : State) (r : Pix) : (s.setPix r).env = s.env := rfl
@[simp] theorem State.setPix_freeCtr (s : State) (r : Pix) : (s.setPix r).freeCtr = s.freeCtr := rfl

@[simp] theorem State.setDrv_params (s : State) (r : Drv) : (s.setDrv r).params = s.params := rfl
@[simp] theorem State.setDrv_inf (s : State) (r : Drv) : (s.setDrv r).inf = s.inf := rfl
@[simp] theorem State.setDrv_flt (s : State) (r : Drv) : (s.setDrv r).flt = s.flt := rfl
@[simp] theorem State.setDrv_pix (s : State) (r : Drv) : (s.setDrv r).pix = s.pix := rfl
@[simp] theorem State.setDrv_drv (s : State) (r : Drv) : (s.setDrv r).drv = r := rfl
@[simp] theorem State.setDrv_mem (s : State) (r : Drv) : (s.setDrv r).mem = s.mem := rfl
@[simp] theorem State.setDrv_rout (s : State) (r : Drv) : (s.setDrv r).rout = s.rout := rfl
@[simp] theorem State.setDrv_env (s : State) (r : Drv) : (s.setDrv r).env = s.env := rfl
@[simp] theorem State.setDrv_freeCtr (s : State) (r : Drv) : (s.setDrv r).freeCtr = s.freeCtr := rfl

@[simp] theorem State.setMem_params (s : State) (r : Memory) : (s.setMem r).params = s.params := rfl
@[simp] theorem State.setMem_inf (s : State) (r : Memory) : (s.setMem r).inf = s.inf := rfl
@[simp] theorem State.setMem_flt (s : State) (r : Memory) : (s.setMem r).flt = s.flt := rfl
@[simp] theorem State.setMem_pix (s : State) (r : Memory) : (s.setMem r).pix = s.pix := rfl
@[simp] theorem State.setMem_drv (s : State) (r : Memory) : (s.setMem r).drv = s.drv := rfl
@[simp] theorem State.setMem_mem (s : State) (r : Memory) : (s.setMem r).mem = r := rfl
@[simp] theorem State.setMem_rout (s : State) (r : Memory) : (s.setMem r).rout = s.rout := rfl
@[simp] theorem State.setMem_env (s : State) (r : Memory) : (s.setMem r).env = s.env := rfl
@[simp] theorem State.setMem_freeCtr (s : State) (r : Memory) : (s.setMem r).freeCtr = s.freeCtr := rfl

@[simp] theorem State.setRout_params (s : State) (r : Option RowRecord) : (s.setRout r).params = s.params := rfl
@[simp] theorem State.setRout_inf (s : State) (r : Option RowRecord) : (s.setRout r).inf = s.inf := rfl
@[simp] theorem State.setRout_flt (s : State) (r : Option RowRecord) : (s.setRout r).flt = s.flt := rfl
@[simp] theorem State.setRout_pix (s : State) (r : Option RowRecord) : (s.setRout r).pix = s.pix := rfl
@[simp] theorem State.setRout_drv (s : State) (r : Option RowRecord) : (s.setRout r).drv = s.drv := rfl
@[simp] theorem State.setRout_mem (s : State) (r : Option RowRecord) : (s.setRout r).mem = s.mem := rfl
@[simp] theorem State.setRout_rout (s : State) (r : Option RowRecord) : (s.setRout r).rout = r := rfl
@[simp] theorem State.setRout_env (s : State) (r : Option RowRecord) : (s.setRout r).env = s.env := rfl
@[simp] theorem State.setRout_freeCtr (s : State) (r : Option RowRecord) : (s.setRout r).freeCtr = s.freeCtr := rfl

@[simp] theorem State.setEnv_params (s : State) (r : Env) : (s.setEnv r).params = s.params := rfl
@[simp] theorem State.setEnv_inf (s : State) (r : Env) : (s.setEnv r).inf = s.inf := rfl
@[simp] theorem State.setEnv_flt (s : State) (r : Env) : (s.setEnv r).flt = s.flt := rfl
@[simp] theorem State.setEnv_pix (s : State) (r : Env) : (s.setEnv r).pix = s.pix := rfl
@[simp] theorem State.setEnv_drv (s : State) (r : Env) : (s.setEnv r).drv = s.drv := rfl
@[simp] theorem State.setEnv_mem (s : State) (r : Env) : (s.setEnv r).mem = s.mem := rfl
@[simp] theorem State.setEnv_rout (s : State) (r : Env) : (s.setEnv r).rout = s.rout := rfl
@[simp] theorem State.setEnv_env (s : State) (r : Env) : (s.setEnv r).env = r := rfl
@[simp] theorem State.setEnv_freeCtr (s : State) (r : Env) : (s.setEnv r).freeCtr = s.freeCtr := rfl

@[simp] theorem State.setInputs_params (s : State) (q : List (Nat × EnvAct)) : (s.setInputs q).params = s.params := rfl
@[simp] theorem State.setInputs_inf (s : State) (q : List (Nat × EnvAct)) : (s.setInputs q).inf = s.inf := rfl
@[simp] theorem State.setInputs_flt (s : State) (q : List (Nat × EnvAct)) : (s.setInputs q).flt = s.flt := rfl
@[simp] theorem State.setInputs_pix (s : State) (q : List (Nat × EnvAct)) : (s.setInputs q).pix = s.pix := rfl
@[simp] theorem State.setInputs_drv (s : State) (q : List (Nat × EnvAct)) : (s.setInputs q).drv = s.drv := rfl
@[simp] theorem State.setInputs_mem (s : State) (q : List (Nat × EnvAct)) : (s.setInputs q).mem = s.mem := rfl
@[simp] theorem State.setInputs_rout (s : State) (q : List (Nat × EnvAct)) : (s.setInputs q).rout = s.rout := rfl
@[simp] theorem State.setInputs_freeCtr (s : State) (q : List (Nat × EnvAct)) : (s.setInputs q).freeCtr = s.freeCtr := rfl
@[simp] theorem State.setInputs_cin (s : State) (q : List (Nat × EnvAct)) : (s.setInputs q).env.cin = s.env.cin := rfl
@[simp] theorem State.setInputs_cinEnd (s : State) (q : List (Nat × EnvAct)) : (s.setInputs q).env.cinEnd = s.env.cinEnd := rfl
@[simp] theorem State.setInputs_pulled (s : State) (q : List (Nat × EnvAct)) : (s.setInputs q).env.pulled = s.env.pulled := rfl
@[simp] theorem State.setInputs_rdata (s : State) (q : List (Nat × EnvAct)) : (s.setInputs q).env.rdata = s.env.rdata := rfl
@[simp] theorem State.setInputs_beenReset (s : State) (q : List (Nat × EnvAct)) : (s.setInputs q).env.beenReset = s.env.beenReset := rfl
@[simp] theorem State.setInputs_inputs (s : State) (q : List (Nat × EnvAct)) : (s.setInputs q).env.inputs = q := rfl

@[simp] theorem State.setCurRow_params (s : State) (r : Cells 8) : (s.setCurRow r).params = s.params := rfl
@[simp] theorem State.setCurRow_inf (s : State) (r : Cells 8) : (s.setCurRow r).inf = s.inf := rfl
@[simp] theorem State.setCurRow_flt (s : State) (r : Cells 8) : (s.setCurRow r).flt = s.flt := rfl
@[simp] theorem State.setCurRow_pix (s : State) (r : Cells 8) : (s.setCurRow r).pix = s.pix := rfl
@[simp] theorem State.setCurRow_drv (s : State) (r : Cells 8) : (s.setCurRow r).drv = s.drv := rfl
@[simp] theorem State.setCurRow_rout (s : State) (r : Cells 8) : (s.setCurRow r).rout = s.rout := rfl
@[simp] theorem State.setCurRow_env (s : State) (r : Cells 8) : (s.setCurRow r).env = s.env := rfl
@[simp] theorem State.setCurRow_freeCtr (s : State) (r : Cells 8) : (s.setCurRow r).freeCtr = s.freeCtr := rfl
@[simp] theorem State.setPrevRow_params (s : State) (r : Cells 8) : (s.setPrevRow r).params = s.params := rfl
@[simp] theorem State.setPrevRow_inf (s : State) (r : Cells 8) : (s.setPrevRow r).inf = s.inf := rfl
@[simp] theorem State.setPrevRow_flt (s : State) (r : Cells 8) : (s.setPrevRow r).flt = s.flt := rfl
@[simp] theorem State.setPrevRow_pix (s : State) (r : Cells 8) : (s.setPrevRow r).pix = s.pix := rfl
@[simp] theorem State.setPrevRow_drv (s : State) (r : Cells 8) : (s.setPrevRow r).drv = s.drv := rfl
@[simp] theorem State.setPrevRow_rout (s : State) (r : Cells 8) : (s.setPrevRow r).rout = s.rout := rfl
@[simp] theorem State.setPrevRow_env (s : State) (r : Cells 8) : (s.setPrevRow r).env = s.env := rfl
@[simp] theorem State.setPrevRow_freeCtr (s : State) (r : Cells 8) : (s.setPrevRow r).freeCtr = s.freeCtr := rfl

@[simp] theorem Memory.setRowbuf_win (m : Memory) (b : Bool) (r : Cells 8) : (m.setRowbuf b r).win = m.win := by
  cases b <;> rfl
@[simp] theorem Memory.setRowbuf_pal (m : Memory) (b : Bool) (r : Cells 8) : (m.setRowbuf b r).pal = m.pal := by
  cases b <;> rfl
@[simp] theorem Memory.rowbuf_setRowbuf (m : Memory) (b : Bool) (r : Cells 8) : (m.setRowbuf b r).rowbuf b = r := by
  cases b <;> rfl
@[simp] theorem Memory.rowbuf_setRowbuf_not (m : Memory) (b : Bool) (r : Cells 8) :
    (m.setRowbuf b r).rowbuf (!b) = m.rowbuf (!b) := by
  cases b <;> rfl
@[simp] theorem Memory.rowbuf_setRowbuf_not' (m : Memory) (b : Bool) (r : Cells 8) :
    (m.setRowbuf (!b) r).rowbuf b = m.rowbuf b := by
  cases b <;> rfl
@[simp] theorem State.setCurRow_win (s : State) (r : Cells 8) : (s.setCurRow r).mem.win = s.mem.win := by
  simp [State.setCurRow]
@[simp] theorem State.setCurRow_pal (s : State) (r : Cells 8) : (s.setCurRow r).mem.pal = s.mem.pal := by
  simp [State.setCurRow]
@[simp] theorem State.setPrevRow_win (s : State) (r : Cells 8) : (s.setPrevRow r).mem.win = s.mem.win := by
  simp [State.setPrevRow]
@[simp] theorem State.setPrevRow_pal (s : State) (r : Cells 8) : (s.setPrevRow r).mem.pal = s.mem.pal := by
  simp [State.setPrevRow]
@[simp] theorem State.curRow_setCurRow (s : State) (r : Cells 8) : (s.setCurRow r).curRow = r := by
  simp [State.setCurRow, State.curRow]
@[simp] theorem State.prevRow_setCurRow (s : State) (r : Cells 8) : (s.setCurRow r).prevRow = s.prevRow := by
  simp [State.setCurRow, State.prevRow]
@[simp] theorem State.prevRow_setPrevRow (s : State) (r : Cells 8) : (s.setPrevRow r).prevRow = r := by
  simp [State.setPrevRow, State.prevRow]
@[simp] theorem State.curRow_setPrevRow (s : State) (r : Cells 8) : (s.setPrevRow r).curRow = s.curRow := by
  simp [State.setPrevRow, State.curRow]

/-! ### Taking the trap -/

@[simp] theorem trapEntry_params (e : ErrCode) (c : Cause) (s : State) : (trapEntry e c s).params = s.params := rfl
@[simp] theorem trapEntry_inf (e : ErrCode) (c : Cause) (s : State) : (trapEntry e c s).inf = freeInf s.params s.freeCtr := rfl
@[simp] theorem trapEntry_flt (e : ErrCode) (c : Cause) (s : State) : (trapEntry e c s).flt = freeFlt s.params s.freeCtr := rfl
@[simp] theorem trapEntry_pix (e : ErrCode) (c : Cause) (s : State) : (trapEntry e c s).pix = s.pix := rfl
@[simp] theorem trapEntry_mem (e : ErrCode) (c : Cause) (s : State) : (trapEntry e c s).mem = freeMem s.params s.freeCtr s.mem := rfl
@[simp] theorem trapEntry_rout (e : ErrCode) (c : Cause) (s : State) : (trapEntry e c s).rout = none := rfl
@[simp] theorem trapEntry_env (e : ErrCode) (c : Cause) (s : State) : (trapEntry e c s).env = s.env := rfl
@[simp] theorem trapEntry_freeCtr (e : ErrCode) (c : Cause) (s : State) : (trapEntry e c s).freeCtr = s.freeCtr + 1 := rfl
@[simp] theorem trapEntry_dstate (e : ErrCode) (c : Cause) (s : State) : (trapEntry e c s).drv.dstate = .error := rfl
@[simp] theorem trapEntry_errcode (e : ErrCode) (c : Cause) (s : State) : (trapEntry e c s).drv.errcode = e := rfl
@[simp] theorem trapEntry_errcause (e : ErrCode) (c : Cause) (s : State) : (trapEntry e c s).drv.errcause = c := rfl
@[simp] theorem trapEntry_cmdstat (e : ErrCode) (c : Cause) (s : State) : (trapEntry e c s).drv.cmdstat = s.drv.cmdstat := rfl
@[simp] theorem trapEntry_stopped (e : ErrCode) (c : Cause) (s : State) : (trapEntry e c s).drv.stopped = s.drv.stopped := rfl
@[simp] theorem trapEntry_rowPending (e : ErrCode) (c : Cause) (s : State) : (trapEntry e c s).drv.rowPending = false := rfl
@[simp] theorem trapEntry_rowcnt (e : ErrCode) (c : Cause) (s : State) : (trapEntry e c s).drv.rowcnt = s.drv.rowcnt := rfl
@[simp] theorem trapEntry_width (e : ErrCode) (c : Cause) (s : State) : (trapEntry e c s).drv.width = s.drv.width := rfl
@[simp] theorem trapEntry_height (e : ErrCode) (c : Cause) (s : State) : (trapEntry e c s).drv.height = s.drv.height := rfl
@[simp] theorem trapEntry_bitdepth (e : ErrCode) (c : Cause) (s : State) : (trapEntry e c s).drv.bitdepth = s.drv.bitdepth := rfl
@[simp] theorem trapEntry_colortype (e : ErrCode) (c : Cause) (s : State) : (trapEntry e c s).drv.colortype = s.drv.colortype := rfl
@[simp] theorem trapEntry_interlace (e : ErrCode) (c : Cause) (s : State) : (trapEntry e c s).drv.interlace = s.drv.interlace := rfl
@[simp] theorem trapEntry_rawDeflate (e : ErrCode) (c : Cause) (s : State) : (trapEntry e c s).drv.rawDeflate = s.drv.rawDeflate := rfl

/-- A trap does not depend on the INF and FLT registers it discards (R326). -/
@[simp] theorem trapEntry_setInf (e : ErrCode) (c : Cause) (s : State) (r : Inf) :
    trapEntry e c (s.setInf r) = trapEntry e c s := rfl
@[simp] theorem trapEntry_setFlt (e : ErrCode) (c : Cause) (s : State) (r : Flt) :
    trapEntry e c (s.setFlt r) = trapEntry e c s := rfl

/-- FLAGS shows its bits in every state but ERROR (R32, R326). -/
theorem State.flags_of_ne_error {s : State} (h : s.drv.dstate ≠ .error) : s.flags = s.flagBits := if_neg h

end Sys2Proof.Machine
end

