-- ==== Sys2Proof/Laws/Cells.lean ====
section
/-! SUPPORT. The laws of memory (20_memory R47): read after write, canonical form, bounds. -/

namespace Sys2Proof.Machine

variable {w : Nat}

@[simp] theorem Cells.read_nil (a : Nat) : Cells.read ([] : Cells w) a = 0 := rfl

theorem Cells.read_cons (k : Nat) (v : BitVec w) (m : Cells w) (a : Nat) :
    Cells.read ((k, v) :: m) a = if k = a then v else Cells.read m a := rfl

/-- An address that is listed nowhere reads 0. -/
theorem Cells.read_of_unlisted (m : Cells w) (a : Nat) (h : ∀ c ∈ m, c.1 ≠ a) : m.read a = 0 := by
  induction m with
  | nil => rfl
  | cons c m ih =>
    obtain ⟨k, v⟩ := c
    rw [Cells.read_cons, if_neg (h (k, v) (by simp))]
    exact ih fun c hc => h c (by simp [hc])

theorem Cells.read_filter (m : Cells w) (p : Nat → Bool) (a : Nat) :
    Cells.read (m.filter fun c => p c.1) a = if p a then m.read a else 0 := by
  induction m with
  | nil => simp
  | cons c m ih =>
    obtain ⟨k, v⟩ := c
    rw [List.filter_cons]
    by_cases hk : p k = true
    · simp only [hk, if_true, Cells.read_cons, ih]
      by_cases hka : k = a
      · subst hka; simp [hk]
      · simp [hka]
    · rw [if_neg (by simpa using hk), ih, Cells.read_cons]
      by_cases hka : k = a
      · subst hka; simp [hk]
      · simp [hka]

theorem Cells.read_insert (m : Cells w) (a b : Nat) (v : BitVec w) (h : ∀ c ∈ m, c.1 ≠ a) :
    (Cells.insert m a v).read b = if a = b then v else m.read b := by
  induction m with
  | nil => rfl
  | cons c m ih =>
    obtain ⟨k, u⟩ := c
    have hk : k ≠ a := h (k, u) (by simp)
    unfold Cells.insert
    split
    · simp [Cells.read_cons]
    · rw [Cells.read_cons, ih fun c hc => h c (by simp [hc]), Cells.read_cons]
      by_cases hkb : k = b
      · subst hkb; simp [hk.symm]
      · simp [hkb]

/-- A read after a write of the same address gives the value written; another address reads as before. For every list. -/
theorem Cells.read_write (m : Cells w) (a b : Nat) (v : BitVec w) :
    (m.write a v).read b = if a = b then v else m.read b := by
  have hf : ∀ c, Cells.read (m.filter fun c => c.1 != a) c = if c = a then 0 else m.read c := by
    intro c
    rw [Cells.read_filter m (fun k => k != a) c]
    by_cases h : c = a <;> simp [h]
  unfold Cells.write
  by_cases hv : v = 0
  · simp only [hv, if_true, hf]
    by_cases h : b = a
    · simp [h]
    · simp [h, Ne.symm h]
  · simp only [hv, if_false]
    rw [Cells.read_insert _ _ _ _ (by simp), hf]
    by_cases h : a = b
    · simp [h]
    · simp [h, Ne.symm h]

@[simp] theorem Cells.read_write_same (m : Cells w) (a : Nat) (v : BitVec w) : (m.write a v).read a = v := by
  simp [Cells.read_write]

theorem Cells.read_write_ne (m : Cells w) {a b : Nat} (v : BitVec w) (h : a ≠ b) : (m.write a v).read b = m.read b := by
  simp [Cells.read_write, h]

/-! ### Canonical form -/

@[simp] theorem Cells.wf_nil : Cells.wf ([] : Cells w) = true := rfl

theorem Cells.wf_cons (a : Nat) (v : BitVec w) (m : Cells w) :
    Cells.wf ((a, v) :: m) = true ↔ v ≠ 0 ∧ (∀ c ∈ m, a < c.1) ∧ m.wf = true := by
  simp [Cells.wf, and_assoc]

theorem Cells.wf_filter (m : Cells w) (p : Nat × BitVec w → Bool) (h : m.wf = true) : Cells.wf (m.filter p) = true := by
  induction m with
  | nil => rfl
  | cons c m ih =>
    obtain ⟨k, v⟩ := c
    obtain ⟨hv, hlt, hm⟩ := (Cells.wf_cons k v m).1 h
    rw [List.filter_cons]
    split
    · refine (Cells.wf_cons _ _ _).2 ⟨hv, fun c hc => hlt c (List.mem_filter.1 hc).1, ih hm⟩
    · exact ih hm

theorem Cells.mem_insert (m : Cells w) (a : Nat) (v : BitVec w) (c : Nat × BitVec w) :
    c ∈ Cells.insert m a v ↔ c = (a, v) ∨ c ∈ m := by
  induction m with
  | nil => simp [Cells.insert]
  | cons d m ih =>
    obtain ⟨k, u⟩ := d
    unfold Cells.insert
    split
    · simp
    · simp [ih]; tauto

theorem Cells.wf_insert (m : Cells w) (a : Nat) (v : BitVec w) (hv : v ≠ 0) (hm : m.wf = true)
    (h : ∀ c ∈ m, c.1 ≠ a) : (Cells.insert m a v).wf = true := by
  induction m with
  | nil => exact (Cells.wf_cons _ _ _).2 ⟨hv, by simp, rfl⟩
  | cons c m ih =>
    obtain ⟨k, u⟩ := c
    obtain ⟨hu, hlt, hm'⟩ := (Cells.wf_cons k u m).1 hm
    have hk : k ≠ a := h (k, u) (by simp)
    unfold Cells.insert
    split
    · rename_i hak
      refine (Cells.wf_cons _ _ _).2 ⟨hv, fun c hc => ?_, hm⟩
      rcases List.mem_cons.1 hc with rfl | hc
      · exact hak
      · exact hak.trans (hlt c hc)
    · rename_i hak
      refine (Cells.wf_cons _ _ _).2 ⟨hu, fun c hc => ?_, ih hm' fun c hc => h c (by simp [hc])⟩
      rcases (Cells.mem_insert _ _ _ _).1 hc with rfl | hc
      · exact lt_of_le_of_ne (not_lt.1 hak) hk
      · exact hlt c hc

/-- Every write keeps the canonical form. -/
theorem Cells.wf_write (m : Cells w) (a : Nat) (v : BitVec w) (h : m.wf = true) : (m.write a v).wf = true := by
  unfold Cells.write
  by_cases hv : v = 0
  · simpa [hv] using Cells.wf_filter m _ h
  · simp only [hv, if_false]
    exact Cells.wf_insert _ _ _ hv (Cells.wf_filter m _ h) (by simp)

theorem Cells.wf_zeroBelow (n : Nat) (m : Cells w) (h : m.wf = true) : (Cells.zeroBelow n m).wf = true :=
  Cells.wf_filter m _ h

theorem Cells.wf_filterMap (f : Nat → BitVec w) (l : List Nat) (h : l.Pairwise (· < ·)) :
    Cells.wf (l.filterMap fun a => if f a = 0 then none else some (a, f a)) = true := by
  induction l with
  | nil => rfl
  | cons a l ih =>
    obtain ⟨ha, hl⟩ := List.pairwise_cons.1 h
    rw [List.filterMap_cons]
    by_cases hf : f a = 0
    · simpa [hf] using ih hl
    · simp only [hf, if_false]
      refine (Cells.wf_cons _ _ _).2 ⟨hf, fun c hc => ?_, ih hl⟩
      obtain ⟨b, hb, hbc⟩ := List.mem_filterMap.1 hc
      split at hbc
      · cases hbc
      · cases hbc; exact ha b hb

theorem Cells.wf_ofFn (n : Nat) (f : Nat → BitVec w) : (Cells.ofFn n f).wf = true :=
  Cells.wf_filterMap f _ List.pairwise_lt_range

/-- Two memories in canonical form that read the same everywhere are the same list. -/
theorem Cells.eq_of_read (m n : Cells w) (hm : m.wf = true) (hn : n.wf = true) (h : ∀ a, m.read a = n.read a) : m = n := by
  induction m generalizing n with
  | nil =>
    cases n with
    | nil => rfl
    | cons d n =>
      obtain ⟨k, v⟩ := d
      have hv := ((Cells.wf_cons k v n).1 hn).1
      have := h k
      simp [Cells.read_cons] at this
      exact absurd this.symm hv
  | cons c m ih =>
    obtain ⟨k, v⟩ := c
    obtain ⟨hv, hlt, hm'⟩ := (Cells.wf_cons k v m).1 hm
    cases n with
    | nil =>
      have := h k
      simp [Cells.read_cons] at this
      exact absurd this hv
    | cons d n =>
      obtain ⟨j, u⟩ := d
      obtain ⟨hu, hlt', hn'⟩ := (Cells.wf_cons j u n).1 hn
      have hkj : k = j := by
        rcases lt_trichotomy k j with hlt1 | heq | hgt
        · have := h k
          rw [Cells.read_cons, if_pos rfl, Cells.read_cons, if_neg hlt1.ne',
            Cells.read_of_unlisted n k fun c hc => (hlt1.trans (hlt' c hc)).ne'] at this
          exact absurd this hv
        · exact heq
        · have := h j
          rw [Cells.read_cons, if_neg hgt.ne', Cells.read_cons, if_pos rfl,
            Cells.read_of_unlisted m j fun c hc => (hgt.trans (hlt c hc)).ne'] at this
          exact absurd this.symm hu
      subst hkj
      have hvu : v = u := by simpa [Cells.read_cons] using h k
      subst hvu
      refine congrArg _ (ih n hm' hn' fun a => ?_)
      by_cases hka : k = a
      · subst hka
        rw [Cells.read_of_unlisted m k fun c hc => (hlt c hc).ne',
          Cells.read_of_unlisted n k fun c hc => (hlt' c hc).ne']
      · simpa [Cells.read_cons, hka] using h a

/-! ### Bounds -/

theorem Cells.below_iff (n : Nat) (m : Cells w) : m.below n = true ↔ ∀ c ∈ m, c.1 < n := by
  simp [Cells.below]

theorem Cells.below_write {n : Nat} {m : Cells w} {a : Nat} (v : BitVec w) (h : m.below n = true) (ha : a < n) :
    (m.write a v).below n = true := by
  rw [Cells.below_iff] at *
  unfold Cells.write
  intro c hc
  by_cases hv : v = 0
  · simp only [hv, if_true] at hc; exact h c (List.mem_filter.1 hc).1
  · simp only [hv, if_false] at hc
    rcases (Cells.mem_insert _ _ _ _).1 hc with rfl | hc
    · exact ha
    · exact h c (List.mem_filter.1 hc).1

theorem Cells.below_zeroBelow {n : Nat} {m : Cells w} (k : Nat) (h : m.below n = true) :
    (Cells.zeroBelow k m).below n = true := by
  rw [Cells.below_iff] at *
  exact fun c hc => h c (List.mem_filter.1 hc).1

theorem Cells.below_ofFn (n : Nat) (f : Nat → BitVec w) : (Cells.ofFn n f).below n = true := by
  rw [Cells.below_iff]
  intro c hc
  obtain ⟨b, hb, hbc⟩ := List.mem_filterMap.1 hc
  split at hbc
  · cases hbc
  · cases hbc; exact List.mem_range.1 hb

/-- Zeroing the addresses below `k` (R233). -/
theorem Cells.read_zeroBelow (k : Nat) (m : Cells w) (a : Nat) :
    (Cells.zeroBelow k m).read a = if a < k then 0 else m.read a := by
  unfold Cells.zeroBelow
  rw [Cells.read_filter m (fun c => decide (k ≤ c)) a]
  by_cases h : a < k
  · simp [h]
  · simp [h, not_lt.1 h]

/-! ### The four memories -/

theorem Memory.wf_iff (m : Memory) :
    m.wf = true ↔ m.win.wf = true ∧ m.row0.wf = true ∧ m.row1.wf = true ∧ m.pal.wf = true := by
  simp [Memory.wf, and_assoc]

theorem Memory.wf_rowbuf {m : Memory} (b : Bool) (h : m.wf = true) : (m.rowbuf b).wf = true := by
  obtain ⟨_, h0, h1, _⟩ := (Memory.wf_iff m).1 h
  cases b <;> simpa [Memory.rowbuf]

theorem Memory.wf_setRowbuf {m : Memory} (b : Bool) {r : Cells 8} (h : m.wf = true) (hr : r.wf = true) :
    (m.setRowbuf b r).wf = true := by
  obtain ⟨hw, h0, h1, hp⟩ := (Memory.wf_iff m).1 h
  cases b <;> simp [Memory.setRowbuf, Memory.wf_iff, *]

theorem freeMem_wf (p : Params) (k : Nat) (m : Memory) (h : m.wf = true) : (freeMem p k m).wf = true := by
  obtain ⟨_, _, _, hp⟩ := (Memory.wf_iff m).1 h
  simp [freeMem, Memory.wf_iff, Cells.wf_ofFn, hp]

theorem Memory.inBounds_iff (p : Params) (m : Memory) :
    m.inBounds p = true ↔ m.win.below p.wsize = true ∧ m.row0.below p.maxStride = true
      ∧ m.row1.below p.maxStride = true ∧ m.pal.below 256 = true := by
  simp [Memory.inBounds, and_assoc]

theorem freeMem_inBounds (p : Params) (k : Nat) (m : Memory) (h : m.inBounds p = true) :
    (freeMem p k m).inBounds p = true := by
  obtain ⟨_, _, _, hp⟩ := (Memory.inBounds_iff p m).1 h
  simp [freeMem, Memory.inBounds_iff, Cells.below_ofFn, hp]

end Sys2Proof.Machine
end

