-- ==== Sys2Proof/Laws/PerInstr.lean ====
section
/-! SUPPORT. Laws stated for every instruction, one lemma per constructor. -/

namespace Sys2Proof

/-- The word of every row fits the width that R89 gives its format. -/
def Laws.WordWidth.Statement (i : Instr) : Prop := (encode i).2 < 2 ^ (encode i).1.width

theorem Laws.WordWidth.zhdr (cmf : Byte) (flg : Byte) : Laws.WordWidth.Statement (.zhdr cmf flg) := by
  simp only [Laws.WordWidth.Statement, encode, Format.width]; omega
theorem Laws.WordWidth.blkStored (final : Bool) : Laws.WordWidth.Statement (.blkStored final) := by
  unfold Laws.WordWidth.Statement; cases final <;> decide
theorem Laws.WordWidth.blkFixed (final : Bool) : Laws.WordWidth.Statement (.blkFixed final) := by
  unfold Laws.WordWidth.Statement; cases final <;> decide
theorem Laws.WordWidth.blkDynamic (final : Bool) : Laws.WordWidth.Statement (.blkDynamic final) := by
  unfold Laws.WordWidth.Statement; cases final <;> decide
theorem Laws.WordWidth.blkReserved (final : Bool) : Laws.WordWidth.Statement (.blkReserved final) := by
  unfold Laws.WordWidth.Statement; cases final <;> decide
theorem Laws.WordWidth.storedHdr : Laws.WordWidth.Statement .storedHdr := by unfold Laws.WordWidth.Statement; decide
theorem Laws.WordWidth.storedByte : Laws.WordWidth.Statement .storedByte := by unfold Laws.WordWidth.Statement; decide
theorem Laws.WordWidth.dynHdr : Laws.WordWidth.Statement .dynHdr := by unfold Laws.WordWidth.Statement; decide
theorem Laws.WordWidth.cl0 : Laws.WordWidth.Statement .cl0 := by unfold Laws.WordWidth.Statement; decide
theorem Laws.WordWidth.cl1 : Laws.WordWidth.Statement .cl1 := by unfold Laws.WordWidth.Statement; decide
theorem Laws.WordWidth.cl2 : Laws.WordWidth.Statement .cl2 := by unfold Laws.WordWidth.Statement; decide
theorem Laws.WordWidth.cl3 : Laws.WordWidth.Statement .cl3 := by unfold Laws.WordWidth.Statement; decide
theorem Laws.WordWidth.cl4 : Laws.WordWidth.Statement .cl4 := by unfold Laws.WordWidth.Statement; decide
theorem Laws.WordWidth.cl5 : Laws.WordWidth.Statement .cl5 := by unfold Laws.WordWidth.Statement; decide
theorem Laws.WordWidth.cl6 : Laws.WordWidth.Statement .cl6 := by unfold Laws.WordWidth.Statement; decide
theorem Laws.WordWidth.cl7 : Laws.WordWidth.Statement .cl7 := by unfold Laws.WordWidth.Statement; decide
theorem Laws.WordWidth.cl8 : Laws.WordWidth.Statement .cl8 := by unfold Laws.WordWidth.Statement; decide
theorem Laws.WordWidth.cl9 : Laws.WordWidth.Statement .cl9 := by unfold Laws.WordWidth.Statement; decide
theorem Laws.WordWidth.cl10 : Laws.WordWidth.Statement .cl10 := by unfold Laws.WordWidth.Statement; decide
theorem Laws.WordWidth.cl11 : Laws.WordWidth.Statement .cl11 := by unfold Laws.WordWidth.Statement; decide
theorem Laws.WordWidth.cl12 : Laws.WordWidth.Statement .cl12 := by unfold Laws.WordWidth.Statement; decide
theorem Laws.WordWidth.cl13 : Laws.WordWidth.Statement .cl13 := by unfold Laws.WordWidth.Statement; decide
theorem Laws.WordWidth.cl14 : Laws.WordWidth.Statement .cl14 := by unfold Laws.WordWidth.Statement; decide
theorem Laws.WordWidth.cl15 : Laws.WordWidth.Statement .cl15 := by unfold Laws.WordWidth.Statement; decide
theorem Laws.WordWidth.cl16 : Laws.WordWidth.Statement .cl16 := by unfold Laws.WordWidth.Statement; decide
theorem Laws.WordWidth.cl17 : Laws.WordWidth.Statement .cl17 := by unfold Laws.WordWidth.Statement; decide
theorem Laws.WordWidth.cl18 : Laws.WordWidth.Statement .cl18 := by unfold Laws.WordWidth.Statement; decide
theorem Laws.WordWidth.lit (b : Byte) : Laws.WordWidth.Statement (.lit b) := by
  simp only [Laws.WordWidth.Statement, encode, Format.width]; omega
theorem Laws.WordWidth.eob : Laws.WordWidth.Statement .eob := by unfold Laws.WordWidth.Statement; decide
theorem Laws.WordWidth.len257 : Laws.WordWidth.Statement .len257 := by unfold Laws.WordWidth.Statement; decide
theorem Laws.WordWidth.len258 : Laws.WordWidth.Statement .len258 := by unfold Laws.WordWidth.Statement; decide
theorem Laws.WordWidth.len259 : Laws.WordWidth.Statement .len259 := by unfold Laws.WordWidth.Statement; decide
theorem Laws.WordWidth.len260 : Laws.WordWidth.Statement .len260 := by unfold Laws.WordWidth.Statement; decide
theorem Laws.WordWidth.len261 : Laws.WordWidth.Statement .len261 := by unfold Laws.WordWidth.Statement; decide
theorem Laws.WordWidth.len262 : Laws.WordWidth.Statement .len262 := by unfold Laws.WordWidth.Statement; decide
theorem Laws.WordWidth.len263 : Laws.WordWidth.Statement .len263 := by unfold Laws.WordWidth.Statement; decide
theorem Laws.WordWidth.len264 : Laws.WordWidth.Statement .len264 := by unfold Laws.WordWidth.Statement; decide
theorem Laws.WordWidth.len265 : Laws.WordWidth.Statement .len265 := by unfold Laws.WordWidth.Statement; decide
theorem Laws.WordWidth.len266 : Laws.WordWidth.Statement .len266 := by unfold Laws.WordWidth.Statement; decide
theorem Laws.WordWidth.len267 : Laws.WordWidth.Statement .len267 := by unfold Laws.WordWidth.Statement; decide
theorem Laws.WordWidth.len268 : Laws.WordWidth.Statement .len268 := by unfold Laws.WordWidth.Statement; decide
theorem Laws.WordWidth.len269 : Laws.WordWidth.Statement .len269 := by unfold Laws.WordWidth.Statement; decide
theorem Laws.WordWidth.len270 : Laws.WordWidth.Statement .len270 := by unfold Laws.WordWidth.Statement; decide
theorem Laws.WordWidth.len271 : Laws.WordWidth.Statement .len271 := by unfold Laws.WordWidth.Statement; decide
theorem Laws.WordWidth.len272 : Laws.WordWidth.Statement .len272 := by unfold Laws.WordWidth.Statement; decide
theorem Laws.WordWidth.len273 : Laws.WordWidth.Statement .len273 := by unfold Laws.WordWidth.Statement; decide
theorem Laws.WordWidth.len274 : Laws.WordWidth.Statement .len274 := by unfold Laws.WordWidth.Statement; decide
theorem Laws.WordWidth.len275 : Laws.WordWidth.Statement .len275 := by unfold Laws.WordWidth.Statement; decide
theorem Laws.WordWidth.len276 : Laws.WordWidth.Statement .len276 := by unfold Laws.WordWidth.Statement; decide
theorem Laws.WordWidth.len277 : Laws.WordWidth.Statement .len277 := by unfold Laws.WordWidth.Statement; decide
theorem Laws.WordWidth.len278 : Laws.WordWidth.Statement .len278 := by unfold Laws.WordWidth.Statement; decide
theorem Laws.WordWidth.len279 : Laws.WordWidth.Statement .len279 := by unfold Laws.WordWidth.Statement; decide
theorem Laws.WordWidth.len280 : Laws.WordWidth.Statement .len280 := by unfold Laws.WordWidth.Statement; decide
theorem Laws.WordWidth.len281 : Laws.WordWidth.Statement .len281 := by unfold Laws.WordWidth.Statement; decide
theorem Laws.WordWidth.len282 : Laws.WordWidth.Statement .len282 := by unfold Laws.WordWidth.Statement; decide
theorem Laws.WordWidth.len283 : Laws.WordWidth.Statement .len283 := by unfold Laws.WordWidth.Statement; decide
theorem Laws.WordWidth.len284 : Laws.WordWidth.Statement .len284 := by unfold Laws.WordWidth.Statement; decide
theorem Laws.WordWidth.len285 : Laws.WordWidth.Statement .len285 := by unfold Laws.WordWidth.Statement; decide
theorem Laws.WordWidth.ll286 : Laws.WordWidth.Statement .ll286 := by unfold Laws.WordWidth.Statement; decide
theorem Laws.WordWidth.ll287 : Laws.WordWidth.Statement .ll287 := by unfold Laws.WordWidth.Statement; decide
theorem Laws.WordWidth.dist0 : Laws.WordWidth.Statement .dist0 := by unfold Laws.WordWidth.Statement; decide
theorem Laws.WordWidth.dist1 : Laws.WordWidth.Statement .dist1 := by unfold Laws.WordWidth.Statement; decide
theorem Laws.WordWidth.dist2 : Laws.WordWidth.Statement .dist2 := by unfold Laws.WordWidth.Statement; decide
theorem Laws.WordWidth.dist3 : Laws.WordWidth.Statement .dist3 := by unfold Laws.WordWidth.Statement; decide
theorem Laws.WordWidth.dist4 : Laws.WordWidth.Statement .dist4 := by unfold Laws.WordWidth.Statement; decide
theorem Laws.WordWidth.dist5 : Laws.WordWidth.Statement .dist5 := by unfold Laws.WordWidth.Statement; decide
theorem Laws.WordWidth.dist6 : Laws.WordWidth.Statement .dist6 := by unfold Laws.WordWidth.Statement; decide
theorem Laws.WordWidth.dist7 : Laws.WordWidth.Statement .dist7 := by unfold Laws.WordWidth.Statement; decide
theorem Laws.WordWidth.dist8 : Laws.WordWidth.Statement .dist8 := by unfold Laws.WordWidth.Statement; decide
theorem Laws.WordWidth.dist9 : Laws.WordWidth.Statement .dist9 := by unfold Laws.WordWidth.Statement; decide
theorem Laws.WordWidth.dist10 : Laws.WordWidth.Statement .dist10 := by unfold Laws.WordWidth.Statement; decide
theorem Laws.WordWidth.dist11 : Laws.WordWidth.Statement .dist11 := by unfold Laws.WordWidth.Statement; decide
theorem Laws.WordWidth.dist12 : Laws.WordWidth.Statement .dist12 := by unfold Laws.WordWidth.Statement; decide
theorem Laws.WordWidth.dist13 : Laws.WordWidth.Statement .dist13 := by unfold Laws.WordWidth.Statement; decide
theorem Laws.WordWidth.dist14 : Laws.WordWidth.Statement .dist14 := by unfold Laws.WordWidth.Statement; decide
theorem Laws.WordWidth.dist15 : Laws.WordWidth.Statement .dist15 := by unfold Laws.WordWidth.Statement; decide
theorem Laws.WordWidth.dist16 : Laws.WordWidth.Statement .dist16 := by unfold Laws.WordWidth.Statement; decide
theorem Laws.WordWidth.dist17 : Laws.WordWidth.Statement .dist17 := by unfold Laws.WordWidth.Statement; decide
theorem Laws.WordWidth.dist18 : Laws.WordWidth.Statement .dist18 := by unfold Laws.WordWidth.Statement; decide
theorem Laws.WordWidth.dist19 : Laws.WordWidth.Statement .dist19 := by unfold Laws.WordWidth.Statement; decide
theorem Laws.WordWidth.dist20 : Laws.WordWidth.Statement .dist20 := by unfold Laws.WordWidth.Statement; decide
theorem Laws.WordWidth.dist21 : Laws.WordWidth.Statement .dist21 := by unfold Laws.WordWidth.Statement; decide
theorem Laws.WordWidth.dist22 : Laws.WordWidth.Statement .dist22 := by unfold Laws.WordWidth.Statement; decide
theorem Laws.WordWidth.dist23 : Laws.WordWidth.Statement .dist23 := by unfold Laws.WordWidth.Statement; decide
theorem Laws.WordWidth.dist24 : Laws.WordWidth.Statement .dist24 := by unfold Laws.WordWidth.Statement; decide
theorem Laws.WordWidth.dist25 : Laws.WordWidth.Statement .dist25 := by unfold Laws.WordWidth.Statement; decide
theorem Laws.WordWidth.dist26 : Laws.WordWidth.Statement .dist26 := by unfold Laws.WordWidth.Statement; decide
theorem Laws.WordWidth.dist27 : Laws.WordWidth.Statement .dist27 := by unfold Laws.WordWidth.Statement; decide
theorem Laws.WordWidth.dist28 : Laws.WordWidth.Statement .dist28 := by unfold Laws.WordWidth.Statement; decide
theorem Laws.WordWidth.dist29 : Laws.WordWidth.Statement .dist29 := by unfold Laws.WordWidth.Statement; decide
theorem Laws.WordWidth.dist30 : Laws.WordWidth.Statement .dist30 := by unfold Laws.WordWidth.Statement; decide
theorem Laws.WordWidth.dist31 : Laws.WordWidth.Statement .dist31 := by unfold Laws.WordWidth.Statement; decide
theorem Laws.WordWidth.matchByte : Laws.WordWidth.Statement .matchByte := by unfold Laws.WordWidth.Statement; decide
theorem Laws.WordWidth.endStep : Laws.WordWidth.Statement .endStep := by unfold Laws.WordWidth.Statement; decide
theorem Laws.WordWidth.filtNone : Laws.WordWidth.Statement .filtNone := by unfold Laws.WordWidth.Statement; decide
theorem Laws.WordWidth.filtSub : Laws.WordWidth.Statement .filtSub := by unfold Laws.WordWidth.Statement; decide
theorem Laws.WordWidth.filtUp : Laws.WordWidth.Statement .filtUp := by unfold Laws.WordWidth.Statement; decide
theorem Laws.WordWidth.filtAvg : Laws.WordWidth.Statement .filtAvg := by unfold Laws.WordWidth.Statement; decide
theorem Laws.WordWidth.filtPaeth : Laws.WordWidth.Statement .filtPaeth := by unfold Laws.WordWidth.Statement; decide
theorem Laws.WordWidth.filtReserved5 : Laws.WordWidth.Statement .filtReserved5 := by unfold Laws.WordWidth.Statement; decide
theorem Laws.WordWidth.filtReserved6to7 (low : BitVec 1) : Laws.WordWidth.Statement (.filtReserved6to7 low) := by
  simp only [Laws.WordWidth.Statement, encode, Format.width]; omega
theorem Laws.WordWidth.filtReserved8to15 (low : BitVec 3) : Laws.WordWidth.Statement (.filtReserved8to15 low) := by
  simp only [Laws.WordWidth.Statement, encode, Format.width]; omega
theorem Laws.WordWidth.filtReserved16to31 (low : BitVec 4) : Laws.WordWidth.Statement (.filtReserved16to31 low) := by
  simp only [Laws.WordWidth.Statement, encode, Format.width]; omega
theorem Laws.WordWidth.filtReserved32to63 (low : BitVec 5) : Laws.WordWidth.Statement (.filtReserved32to63 low) := by
  simp only [Laws.WordWidth.Statement, encode, Format.width]; omega
theorem Laws.WordWidth.filtReserved64to127 (low : BitVec 6) : Laws.WordWidth.Statement (.filtReserved64to127 low) := by
  simp only [Laws.WordWidth.Statement, encode, Format.width]; omega
theorem Laws.WordWidth.filtReserved128to255 (low : BitVec 7) : Laws.WordWidth.Statement (.filtReserved128to255 low) := by
  simp only [Laws.WordWidth.Statement, encode, Format.width]; omega
theorem Laws.WordWidth.pixG1 : Laws.WordWidth.Statement .pixG1 := by unfold Laws.WordWidth.Statement; decide
theorem Laws.WordWidth.pixG2 : Laws.WordWidth.Statement .pixG2 := by unfold Laws.WordWidth.Statement; decide
theorem Laws.WordWidth.pixG4 : Laws.WordWidth.Statement .pixG4 := by unfold Laws.WordWidth.Statement; decide
theorem Laws.WordWidth.pixG8 : Laws.WordWidth.Statement .pixG8 := by unfold Laws.WordWidth.Statement; decide
theorem Laws.WordWidth.pixRgb8 : Laws.WordWidth.Statement .pixRgb8 := by unfold Laws.WordWidth.Statement; decide
theorem Laws.WordWidth.pixI1 : Laws.WordWidth.Statement .pixI1 := by unfold Laws.WordWidth.Statement; decide
theorem Laws.WordWidth.pixI2 : Laws.WordWidth.Statement .pixI2 := by unfold Laws.WordWidth.Statement; decide
theorem Laws.WordWidth.pixI4 : Laws.WordWidth.Statement .pixI4 := by unfold Laws.WordWidth.Statement; decide
theorem Laws.WordWidth.pixI8 : Laws.WordWidth.Statement .pixI8 := by unfold Laws.WordWidth.Statement; decide
theorem Laws.WordWidth.pixGa8 : Laws.WordWidth.Statement .pixGa8 := by unfold Laws.WordWidth.Statement; decide
theorem Laws.WordWidth.pixRgba8 : Laws.WordWidth.Statement .pixRgba8 := by unfold Laws.WordWidth.Statement; decide
theorem Laws.WordWidth.pixG16 : Laws.WordWidth.Statement .pixG16 := by unfold Laws.WordWidth.Statement; decide
theorem Laws.WordWidth.pixRgb16 : Laws.WordWidth.Statement .pixRgb16 := by unfold Laws.WordWidth.Statement; decide
theorem Laws.WordWidth.pixGa16 : Laws.WordWidth.Statement .pixGa16 := by unfold Laws.WordWidth.Statement; decide
theorem Laws.WordWidth.pixRgba16 : Laws.WordWidth.Statement .pixRgba16 := by unfold Laws.WordWidth.Statement; decide
theorem Laws.WordWidth.pixOther (ct : Byte) (bd : Byte) : Laws.WordWidth.Statement (.pixOther ct bd) := by
  simp only [Laws.WordWidth.Statement, encode, Format.width]; omega
theorem Laws.WordWidth.reset : Laws.WordWidth.Statement .reset := by unfold Laws.WordWidth.Statement; decide
theorem Laws.WordWidth.commitHeader : Laws.WordWidth.Statement .commitHeader := by unfold Laws.WordWidth.Statement; decide
theorem Laws.WordWidth.start : Laws.WordWidth.Statement .start := by unfold Laws.WordWidth.Statement; decide
theorem Laws.WordWidth.cmdIllegal0 : Laws.WordWidth.Statement .cmdIllegal0 := by unfold Laws.WordWidth.Statement; decide
theorem Laws.WordWidth.cmdIllegal4to7 (low : BitVec 2) : Laws.WordWidth.Statement (.cmdIllegal4to7 low) := by
  simp only [Laws.WordWidth.Statement, encode, Format.width]; omega
theorem Laws.WordWidth.answerContinue : Laws.WordWidth.Statement .answerContinue := by unfold Laws.WordWidth.Statement; decide
theorem Laws.WordWidth.answerStop : Laws.WordWidth.Statement .answerStop := by unfold Laws.WordWidth.Statement; decide

end Sys2Proof
end

