-- ==== Sys2Proof/Laws/Rows.lean ====
section
/-! SUPPORT. What emitting a byte can do (R140, R221, R222), what a tag and a completed row can do (R229, R280), and what the
answer `continue` can do (R232). -/

namespace Sys2Proof.Machine

/-! ### The window part of Emit -/

@[simp] theorem windowPush_params (b : Byte) (s : State) : (windowPush b s).params = s.params := rfl
@[simp] theorem windowPush_flt (b : Byte) (s : State) : (windowPush b s).flt = s.flt := rfl
@[simp] theorem windowPush_pix (b : Byte) (s : State) : (windowPush b s).pix = s.pix := rfl
@[simp] theorem windowPush_drv (b : Byte) (s : State) : (windowPush b s).drv = s.drv := rfl
@[simp] theorem windowPush_rout (b : Byte) (s : State) : (windowPush b s).rout = s.rout := rfl
@[simp] theorem windowPush_env (b : Byte) (s : State) : (windowPush b s).env = s.env := rfl
@[simp] theorem windowPush_freeCtr (b : Byte) (s : State) : (windowPush b s).freeCtr = s.freeCtr := rfl
@[simp] theorem windowPush_win (b : Byte) (s : State) : (windowPush b s).mem.win = s.mem.win.write s.inf.wpos b := rfl
@[simp] theorem windowPush_pal (b : Byte) (s : State) : (windowPush b s).mem.pal = s.mem.pal := rfl
@[simp] theorem windowPush_row0 (b : Byte) (s : State) : (windowPush b s).mem.row0 = s.mem.row0 := rfl
@[simp] theorem windowPush_row1 (b : Byte) (s : State) : (windowPush b s).mem.row1 = s.mem.row1 := rfl
@[simp] theorem windowPush_curRow (b : Byte) (s : State) : (windowPush b s).curRow = s.curRow := rfl
@[simp] theorem windowPush_prevRow (b : Byte) (s : State) : (windowPush b s).prevRow = s.prevRow := rfl
theorem windowPush_inf (b : Byte) (s : State) : (windowPush b s).inf =
    { s.inf with wpos := (s.inf.wpos + 1) % s.params.wsize, hist := min (s.inf.hist + 1) s.params.wsize } := rfl

/-- The window part of `Emit` is exactly what `InWindow` says. -/
theorem windowPush_inWindow (b : Byte) (s : State) : InWindow b s (windowPush b s) where
  inf := rfl
  winAt := by simp
  winElse := fun a h => by simp [Cells.read_write_ne _ b (Ne.symm h)]
  prevRow := rfl
  pal := rfl
  pix := rfl
  drv := rfl
  rout := rfl
  env := rfl
  params := rfl

/-! ### Tags -/

/-- Which row each tag byte has (R82, R229). -/
theorem decodeFtag_cases (b : Byte) :
    (b = 0 ∧ decodeFtag b = .filtNone) ∨ (b = 1 ∧ decodeFtag b = .filtSub) ∨ (b = 2 ∧ decodeFtag b = .filtUp)
    ∨ (b = 3 ∧ decodeFtag b = .filtAvg) ∨ (b = 4 ∧ decodeFtag b = .filtPaeth)
    ∨ (4 < b.toNat ∧ (decodeFtag b = .filtReserved5 ∨ (∃ l, decodeFtag b = .filtReserved6to7 l)
        ∨ (∃ l, decodeFtag b = .filtReserved8to15 l) ∨ (∃ l, decodeFtag b = .filtReserved16to31 l)
        ∨ (∃ l, decodeFtag b = .filtReserved32to63 l) ∨ (∃ l, decodeFtag b = .filtReserved64to127 l)
        ∨ (∃ l, decodeFtag b = .filtReserved128to255 l))) := by
  have hb : ∀ k : Nat, k < 256 → (b.toNat = k ↔ b = BitVec.ofNat 8 k) := fun k hk => by
    rw [← BitVec.toNat_inj, BitVec.toNat_ofNat, Nat.mod_eq_of_lt hk]
  by_cases h0 : b.toNat = 0
  · exact .inl ⟨(hb 0 (by omega)).1 h0, by simp [decodeFtag, h0]⟩
  by_cases h1 : b.toNat = 1
  · exact .inr (.inl ⟨(hb 1 (by omega)).1 h1, by simp [decodeFtag, h1]⟩)
  by_cases h2 : b.toNat = 2
  · exact .inr (.inr (.inl ⟨(hb 2 (by omega)).1 h2, by simp [decodeFtag, h2]⟩))
  by_cases h3 : b.toNat = 3
  · exact .inr (.inr (.inr (.inl ⟨(hb 3 (by omega)).1 h3, by simp [decodeFtag, h3]⟩)))
  by_cases h4 : b.toNat = 4
  · exact .inr (.inr (.inr (.inr (.inl ⟨(hb 4 (by omega)).1 h4, by simp [decodeFtag, h4]⟩))))
  refine .inr (.inr (.inr (.inr (.inr ⟨by omega, ?_⟩))))
  by_cases h5 : b.toNat = 5
  · exact .inl (by simp [decodeFtag, h5])
  by_cases h6 : b.toNat < 8
  · exact .inr (.inl ⟨BitVec.ofNat 1 b.toNat, by simp only [decodeFtag, h0, h1, h2, h3, h4, h5, h6, if_true, if_false]⟩)
  by_cases h7 : b.toNat < 16
  · exact .inr (.inr (.inl ⟨BitVec.ofNat 3 b.toNat, by simp only [decodeFtag, h0, h1, h2, h3, h4, h5, h6, h7, if_true, if_false]⟩))
  by_cases h8 : b.toNat < 32
  · exact .inr (.inr (.inr (.inl ⟨BitVec.ofNat 4 b.toNat, by simp only [decodeFtag, h0, h1, h2, h3, h4, h5, h6, h7, h8, if_true, if_false]⟩)))
  by_cases h9 : b.toNat < 64
  · exact .inr (.inr (.inr (.inr (.inl
      ⟨BitVec.ofNat 5 b.toNat, by simp only [decodeFtag, h0, h1, h2, h3, h4, h5, h6, h7, h8, h9, if_true, if_false]⟩))))
  by_cases h10 : b.toNat < 128
  · exact .inr (.inr (.inr (.inr (.inr (.inl
      ⟨BitVec.ofNat 6 b.toNat, by simp only [decodeFtag, h0, h1, h2, h3, h4, h5, h6, h7, h8, h9, h10, if_true, if_false]⟩)))))
  · exact .inr (.inr (.inr (.inr (.inr (.inr
      ⟨BitVec.ofNat 7 b.toNat, by simp only [decodeFtag, h0, h1, h2, h3, h4, h5, h6, h7, h8, h9, h10, if_false]⟩)))))

/-- Every tag has a row: 0 to 4 start a row of data, the others raise. -/
theorem runTag_decodeFtag (b : Byte) (s : State) :
    runTag (decodeFtag b) s
      = if b.toNat ≤ 4 then acceptTag (BitVec.ofNat 3 b.toNat) s else raiseDecode .filterType s := by
  rcases decodeFtag_cases b with ⟨rfl, h⟩ | ⟨rfl, h⟩ | ⟨rfl, h⟩ | ⟨rfl, h⟩ | ⟨rfl, h⟩ |
    ⟨hb, h | ⟨l, h⟩ | ⟨l, h⟩ | ⟨l, h⟩ | ⟨l, h⟩ | ⟨l, h⟩ | ⟨l, h⟩⟩ <;> rw [h]
  all_goals first
    | rfl
    | (rw [if_neg (by omega)]; rfl)

/-- Running a tag's row inside a step is running the row. -/
theorem runTag_eq_exec (b : Byte) (s : State) : runTag (decodeFtag b) s = exec (decodeFtag b) s := by
  rcases decodeFtag_cases b with ⟨_, h⟩ | ⟨_, h⟩ | ⟨_, h⟩ | ⟨_, h⟩ | ⟨_, h⟩ |
    ⟨_, h | ⟨l, h⟩ | ⟨l, h⟩ | ⟨l, h⟩ | ⟨l, h⟩ | ⟨l, h⟩ | ⟨l, h⟩⟩ <;> rw [h] <;> rfl

/-! ### Pixel formats -/

/-- Running a pixel format's row inside a step is running the row. -/
theorem runPixel_eq_exec (ct bd : Byte) (s : State) : runPixel (decodePixfmt ct bd) s = exec (decodePixfmt ct bd) s := by
  unfold decodePixfmt
  split <;> rfl

/-- A completed row is presented, or its format is refused. -/
theorem runPixel_cases (ct bd : Byte) (s : State) :
    (∃ px, runPixel (decodePixfmt ct bd) s = presentRow px s) ∨ runPixel (decodePixfmt ct bd) s = raiseUnsupported s := by
  unfold decodePixfmt
  split <;> first | exact .inr rfl | exact .inl ⟨_, rfl⟩

/-- A converted format presents the row. -/
theorem runPixel_converted {d : Drv} (h : d.converted = true) (s : State) :
    ∃ px, runPixel (decodePixfmt d.colortype d.bitdepth) s = presentRow px s := by
  simp only [Drv.converted, namedPixelPairs, List.cons_append, List.nil_append, List.take_succ_cons, List.take_zero,
    List.contains_eq_mem, List.mem_cons, Prod.mk.injEq, List.not_mem_nil, or_false, decide_eq_true_eq] at h
  rcases h with ⟨h1, h2⟩ | ⟨h1, h2⟩ | ⟨h1, h2⟩ | ⟨h1, h2⟩ | ⟨h1, h2⟩ | ⟨h1, h2⟩ | ⟨h1, h2⟩ | ⟨h1, h2⟩ | ⟨h1, h2⟩ |
    ⟨h1, h2⟩ | ⟨h1, h2⟩ <;> exact ⟨_, by rw [decodePixfmt, h1, h2]; rfl⟩

/-! ### Reconstruction -/

theorem reconstruct_read_ge (ftype : BitVec 3) (fbpp n : Nat) (prev cur : Cells 8) (x : Nat) (h : n ≤ x) :
    (reconstruct ftype fbpp prev n cur).read x = cur.read x := by
  induction n with
  | zero => rfl
  | succ n ih =>
    rw [reconstruct, Cells.read_write_ne _ _ (by omega), ih (by omega)]

theorem reconstruct_wf (ftype : BitVec 3) (fbpp n : Nat) (prev cur : Cells 8) (h : cur.wf = true) :
    (reconstruct ftype fbpp prev n cur).wf = true := by
  induction n with
  | zero => exact h
  | succ n ih => exact Cells.wf_write _ _ _ ih

theorem reconstruct_below {ftype : BitVec 3} {fbpp n k : Nat} {prev cur : Cells 8} (h : cur.below k = true) (hn : n ≤ k) :
    (reconstruct ftype fbpp prev n cur).below k = true := by
  induction n with
  | zero => exact h
  | succ n ih => exact Cells.below_write _ (ih (by omega)) (by omega)

/-! ### Emit -/

theorem emit_tag {b : Byte} {s : State} (h : s.flt.rphase = .tag) :
    emit b s = runTag (decodeFtag b) (windowPush b s) := by
  simp [emit, fltPush, h]

theorem emit_midRow {b : Byte} {s : State} (h : s.flt.rphase = .data) (hx : s.flt.rx + 1 ≠ s.flt.pstride) :
    emit b s = .next (((windowPush b s).setCurRow (s.curRow.write s.flt.rx b)).setFlt { s.flt with rx := s.flt.rx + 1 }) := by
  simp [emit, fltPush, h, fltData, hx]

theorem emit_lastByte {b : Byte} {s : State} (h : s.flt.rphase = .data) (hx : s.flt.rx + 1 = s.flt.pstride) :
    emit b s = rowComplete
      (((windowPush b s).setCurRow (s.curRow.write s.flt.rx b)).setFlt { s.flt with rx := s.flt.rx + 1 }) := by
  simp [emit, fltPush, h, fltData, hx]

/-- `Emit` never waits and is never refused. -/
theorem emit_next (b : Byte) (s : State) : ∃ t, emit b s = .next t := by
  cases h : s.flt.rphase with
  | tag =>
    rw [emit_tag h, runTag_decodeFtag]
    split
    · exact ⟨_, rfl⟩
    · exact ⟨_, rfl⟩
  | data =>
    by_cases hx : s.flt.rx + 1 = s.flt.pstride
    · rw [emit_lastByte h hx]
      unfold rowComplete
      rcases runPixel_cases _ _ _ with ⟨px, hp⟩ | hp
      · exact ⟨_, hp⟩
      · exact ⟨_, hp⟩
    · exact ⟨_, emit_midRow h hx⟩

/-! ### RowAdvance -/

/-- The three ways on after an answer `continue`. -/
theorem rowAdvance_cases (s : State) :
    ∃ s1, s1 = s.setFlt { s.flt with cursel := !s.flt.cursel, rphase := .tag, rx := 0, prow := s.flt.prow + 1 } ∧
      ((s.flt.prow + 1 ≠ s.flt.ph ∧ rowAdvance s = s1) ∨
       (s.flt.prow + 1 = s.flt.ph ∧ (s.drv.interlace ≠ 1 ∨ nextPass s.drv (s.flt.pass.toNat + 1) = none) ∧
          rowAdvance s = s1.setDrv { s.drv with dstate := .done }) ∨
       (s.flt.prow + 1 = s.flt.ph ∧ s.drv.interlace = 1 ∧
          ∃ q, nextPass s.drv (s.flt.pass.toNat + 1) = some q ∧ rowAdvance s = startPass q s1)) := by
  refine ⟨_, rfl, ?_⟩
  unfold rowAdvance
  by_cases hp : s.flt.prow + 1 = s.flt.ph
  · rw [if_pos hp]
    refine .inr ?_
    by_cases hi : s.drv.interlace = 1
    · rw [if_pos hi]
      cases hn : nextPass s.drv (s.flt.pass.toNat + 1) with
      | none => exact .inl ⟨hp, .inr rfl, rfl⟩
      | some q => exact .inr ⟨hp, hi, q, rfl, rfl⟩
    · rw [if_neg hi]
      exact .inl ⟨hp, .inl hi, rfl⟩
  · rw [if_neg hp]
    exact .inl ⟨hp, rfl⟩

theorem nextPass_some {d : Drv} {k q : Nat} (h : nextPass d k = some q) :
    k ≤ q ∧ q ≤ 7 ∧ 1 ≤ passWidth d q ∧ 1 ≤ passHeight d q := by
  have h1 := List.find?_some h
  have h2 := List.mem_of_find?_eq_some h
  simp only [Bool.and_eq_true, decide_eq_true_eq, bne_iff_ne, ne_eq, List.mem_range] at h1 h2
  omega

/-- `nextPass` answers a pass exactly when it is the smallest one that contains pixels (R235). -/
theorem nextPass_eq_some {d : Drv} {k q : Nat} : nextPass d k = some q ↔ IsNextPass d k q := by
  unfold nextPass IsNextPass PassHasPixels
  rw [List.find?_range_eq_some]
  simp only [Bool.and_eq_true, decide_eq_true_eq, bne_iff_ne, ne_eq, List.mem_range, Bool.not_eq_true', Bool.eq_false_iff]
  constructor
  · rintro ⟨⟨⟨h1, h2⟩, h3⟩, h4, h5⟩
    exact ⟨h1, by omega, by omega, fun r hr hq => by have := h5 r hq; omega⟩
  · rintro ⟨h1, h2, h3, h4⟩
    exact ⟨⟨⟨h1, by omega⟩, by omega⟩, by omega, fun r hq => by have := h4 r; omega⟩

/-- `nextPass` answers none exactly when no later pass contains pixels (R235). -/
theorem nextPass_eq_none {d : Drv} {k : Nat} : nextPass d k = none ↔ NoNextPass d k := by
  unfold nextPass NoNextPass PassHasPixels
  simp only [List.find?_eq_none, List.mem_range, Bool.and_eq_true, decide_eq_true_eq, bne_iff_ne, ne_eq]
  constructor
  · intro h r h1 h2; have := h r (by omega); omega
  · intro h r h1; have := h r; omega

theorem divUp_le_self {n s : Nat} (hs : 1 ≤ s) : divUp n s ≤ n := by
  unfold divUp
  rcases Nat.eq_zero_or_pos n with rfl | hn
  · rw [Nat.div_eq_of_lt (by omega)]
  · rw [Nat.div_le_iff_le_mul_add_pred (by omega)]
    have := Nat.le_mul_of_pos_left n (show 0 < s by omega)
    omega

theorem divUp_mono {m n s : Nat} (h : m ≤ n) : divUp m s ≤ divUp n s := by
  unfold divUp
  exact Nat.div_le_div_right (by omega)

theorem passDim_le (n o s : Nat) (hs : 1 ≤ s) : passDim n o s ≤ n := by
  unfold passDim
  split
  · exact (divUp_le_self hs).trans (by omega)
  · omega

theorem passGeometry_steps (q : Nat) : 1 ≤ (passGeometry q).xs ∧ 1 ≤ (passGeometry q).ys := by
  unfold passGeometry
  split <;> simp

theorem passWidth_le (d : Drv) (q : Nat) : passWidth d q ≤ d.width.toNat := passDim_le _ _ _ (passGeometry_steps q).1

theorem passHeight_le (d : Drv) (q : Nat) : passHeight d q ≤ d.height.toNat := passDim_le _ _ _ (passGeometry_steps q).2

/-- The stride of a pass is at most the stride of the image (R235, R49). -/
theorem stride_pass_le (d : Drv) (q : Nat) : d.stride (passWidth d q) ≤ d.stride d.width.toNat :=
  divUp_mono (Nat.mul_le_mul_left _ (passWidth_le d q))

end Sys2Proof.Machine
end

