-- ==== Sys2Proof/Laws/Stream.lean ====
section
/-! SUPPORT. What reading the compressed stream can do (R42, R43, R58, R133), and the bit strings that it reads back. -/

namespace Sys2Proof.Machine

/-! ### IPOS -/

@[simp] theorem advance_params (n : Nat) (s : State) : (advance n s).params = s.params := rfl
@[simp] theorem advance_flt (n : Nat) (s : State) : (advance n s).flt = s.flt := rfl
@[simp] theorem advance_pix (n : Nat) (s : State) : (advance n s).pix = s.pix := rfl
@[simp] theorem advance_drv (n : Nat) (s : State) : (advance n s).drv = s.drv := rfl
@[simp] theorem advance_mem (n : Nat) (s : State) : (advance n s).mem = s.mem := rfl
@[simp] theorem advance_rout (n : Nat) (s : State) : (advance n s).rout = s.rout := rfl
@[simp] theorem advance_env (n : Nat) (s : State) : (advance n s).env = s.env := rfl
@[simp] theorem advance_freeCtr (n : Nat) (s : State) : (advance n s).freeCtr = s.freeCtr := rfl
theorem advance_inf (n : Nat) (s : State) :
    (advance n s).inf = { s.inf with ipos := s.inf.ipos + BitVec.ofNat 64 n } := rfl

@[simp] theorem advance_zero (s : State) : advance 0 s = s := by
  simp [advance, State.setInf]

theorem advance_advance (m n : Nat) (s : State) : advance n (advance m s) = advance (m + n) s := by
  simp [advance, State.setInf, BitVec.add_assoc, BitVec.ofNat_add]

@[simp] theorem hasBits_iff (n : Nat) (s : State) :
    hasBits n s = true ↔ s.inf.ipos.toNat + n ≤ 8 * s.env.cin.length := by
  simp [hasBits]

/-- Inside a stream that IPOS can count, IPOS does not wrap. -/
theorem advance_ipos (n : Nat) (s : State) (hc : 8 * s.env.cin.length < 2 ^ 64) (h : hasBits n s = true) :
    (advance n s).inf.ipos.toNat = s.inf.ipos.toNat + n := by
  simp only [hasBits_iff] at h
  simp only [advance_inf, BitVec.toNat_add, BitVec.toNat_ofNat]
  omega

/-! ### ReadBits -/

theorem readBits_eq {n : Nat} {s : State} (h : hasBits n s = true) : readBits n s = .ok (nextBits n s, advance n s) := by
  simp only [readBits, h, or_true, if_true]

@[simp] theorem readBits_zero (s : State) : readBits 0 s = .ok (0, s) := by
  simp [readBits, nextBits, bitsAt]

/-- Everything `ReadBits` can do. -/
theorem readBits_cases (n : Nat) (s : State) :
    ((n = 0 ∨ hasBits n s = true) ∧ readBits n s = .ok (nextBits n s, advance n s)) ∨
    (0 < n ∧ hasBits n s = false ∧ s.env.cinEnd = true ∧ readBits n s = .error (.raise .truncated)) ∨
    (0 < n ∧ hasBits n s = false ∧ s.env.cinEnd = false ∧ readBits n s = .error .starve) := by
  unfold readBits
  by_cases h : n = 0 ∨ hasBits n s = true
  · exact .inl ⟨h, by simp only [h, if_true]⟩
  · have hn : 0 < n := by omega
    have hb : hasBits n s = false := Bool.eq_false_iff.2 fun hb => h (.inr hb)
    cases hc : s.env.cinEnd <;> simp [hn, hb, hn.ne']

theorem readBits_ok {n v : Nat} {s t : State} (h : readBits n s = .ok (v, t)) :
    (n = 0 ∨ hasBits n s = true) ∧ v = nextBits n s ∧ t = advance n s := by
  rcases readBits_cases n s with ⟨hb, hr⟩ | ⟨_, _, _, hr⟩ | ⟨_, _, _, hr⟩ <;> rw [hr] at h
  · cases h; exact ⟨hb, rfl, rfl⟩
  · cases h
  · cases h

theorem bitNat_lt (b : Bool) : bitNat b < 2 := by cases b <;> decide

theorem bitsAt_lt (cin : List Byte) (pos n : Nat) : bitsAt cin pos n < 2 ^ n := by
  induction n generalizing pos with
  | zero => simp [bitsAt]
  | succ n ih =>
    have := ih (pos + 1)
    have := bitNat_lt (cinBit cin pos)
    simp only [bitsAt, pow_succ]
    omega

theorem nextBits_lt (n : Nat) (s : State) : nextBits n s < 2 ^ n := bitsAt_lt _ _ _

/-- Bit i of the number is stream bit pos + i (R42). -/
theorem bitsAt_testBit (cin : List Byte) (pos n i : Nat) (h : i < n) :
    (bitsAt cin pos n).testBit i = cinBit cin (pos + i) := by
  induction n generalizing pos i with
  | zero => omega
  | succ n ih =>
    unfold bitsAt
    cases i with
    | zero => cases hb : cinBit cin pos <;> simp [bitNat, Nat.testBit_zero, Nat.add_mod]
    | succ i =>
      have h2 : (bitNat (cinBit cin pos) + 2 * bitsAt cin (pos + 1) n) / 2 = bitsAt cin (pos + 1) n := by
        have := bitNat_lt (cinBit cin pos)
        omega
      rw [Nat.testBit_succ, h2, ih _ _ (by omega)]
      congr 1
      omega

/-! ### DecodeSym -/

theorem symbolsOfLength_mem (lens : List Nat) (l sym : Nat) :
    sym ∈ symbolsOfLength lens l ↔ lens[sym]? = some l := by
  simp only [symbolsOfLength, List.mem_map, List.mem_filter, beq_iff_eq, Prod.exists, List.mem_zipIdx_iff_getElem?]
  constructor
  · rintro ⟨a, b, ⟨h, rfl⟩, rfl⟩; exact h
  · exact fun h => ⟨l, sym, ⟨h, rfl⟩, rfl⟩

/-- When `DecodeSym` answers a symbol, it has consumed exactly the bits of a code of that symbol's length. -/
theorem decodeSymFrom_ok {lens : List Nat} {fuel l c first sym : Nat} {s t : State}
    (h : decodeSymFrom lens fuel l c first s = .ok (sym, t)) :
    ∃ k, 1 ≤ k ∧ k ≤ fuel ∧ lens[sym]? = some (l + k - 1) ∧ t = advance k s
      ∧ (8 * s.env.cin.length < 2 ^ 64 → hasBits k s = true) := by
  induction fuel generalizing l c first s with
  | zero => simp [decodeSymFrom] at h
  | succ fuel ih =>
    unfold decodeSymFrom at h
    rcases hr : readBits 1 s with e | ⟨b, s1⟩
    · simp [hr] at h
    · obtain ⟨hb, rfl, rfl⟩ := readBits_ok hr
      have hb1 : hasBits 1 s = true := by simpa using hb
      simp only [hr] at h
      split at h
      · rename_i sym' hs
        cases h
        refine ⟨1, le_rfl, by omega, ?_, rfl, fun _ => hb1⟩
        have := (symbolsOfLength_mem lens l sym).1 (List.mem_of_getElem? hs)
        simpa using this
      · obtain ⟨k, h1, h2, h3, h4, h5⟩ := ih h
        refine ⟨k + 1, by omega, by omega, ?_, ?_, fun hc => ?_⟩
        · rw [h3]; congr 1; omega
        · rw [h4, advance_advance, Nat.add_comm]
        · have h6 := h5 (by simpa using hc)
          have h7 := advance_ipos 1 s hc hb1
          simp only [hasBits_iff, advance_env] at *
          omega

theorem decodeSym_ok {lens : List Nat} {sym : Nat} {s t : State} (h : decodeSym lens s = .ok (sym, t)) :
    ∃ k, 1 ≤ k ∧ k ≤ 15 ∧ lens[sym]? = some k ∧ sym < lens.length ∧ t = advance k s
      ∧ (8 * s.env.cin.length < 2 ^ 64 → hasBits k s = true) := by
  obtain ⟨k, h1, h2, h3, h4, h5⟩ := decodeSymFrom_ok h
  have h3' : lens[sym]? = some k := by simpa using h3
  exact ⟨k, h1, h2, h3', (List.getElem?_eq_some_iff.1 h3').1, h4, h5⟩

@[simp] theorem fileLens_length {w n : Nat} (v : Vector (BitVec w) n) : (fileLens v).length = n := by
  simp [fileLens]

/-- The code of one alphabet never answers a symbol outside it. -/
theorem decodeSym_file_lt {w n : Nat} {v : Vector (BitVec w) n} {sym : Nat} {s t : State}
    (h : decodeSym (fileLens v) s = .ok (sym, t)) : sym < n := by
  obtain ⟨_, _, _, _, h4, _⟩ := decodeSym_ok h
  simpa using h4

/-! ### Going on with what was read -/

@[simp] theorem andThen_ok {α : Type} (s : State) (a : α) (k : α → Result) : andThen s (.ok a) k = k a := rfl
@[simp] theorem andThen_raise {α : Type} (s : State) (c : Cause) (k : α → Result) :
    andThen s (.error (.raise c)) k = raiseDecode c s := rfl
@[simp] theorem andThen_starve {α : Type} (s : State) (k : α → Result) :
    andThen s (.error .starve) k = .fault .awaitSource := rfl

/-- A next state comes from the value read, or is a trap. -/
theorem andThen_next {α : Type} {s t : State} {r : Except Stop α} {k : α → Result} (h : andThen s r k = .next t) :
    (∃ a, r = .ok a ∧ k a = .next t) ∨ (∃ c, r = .error (.raise c) ∧ t = trapEntry .decodeError c s) := by
  rcases r with (c | _) | a
  · exact .inr ⟨c, rfl, by simpa [raiseDecode] using h.symm⟩
  · simp at h
  · exact .inl ⟨a, rfl, h⟩

/-- A step is refused only by what follows the reading. -/
theorem andThen_refused {α : Type} {s : State} {q : Refusal} {r : Except Stop α} {k : α → Result}
    (h : andThen s r k = .refused q) : ∃ a, r = .ok a ∧ k a = .refused q := by
  rcases r with (c | _) | a
  · simp [raiseDecode] at h
  · simp at h
  · exact ⟨a, rfl, h⟩

end Sys2Proof.Machine
end

