-- ==== Sys2Proof/Laws/Sequencer.lean ====
section
/-! SUPPORT. What one step can do (R296, R305): the core's turn or one action, and within the core's turn which row. -/

namespace Sys2Proof.Machine

/-- Everything a step that answers a next state has done. -/
theorem step_next {s t : State} (h : step s = .next t) :
    (s.env.beenReset = true ∧ s.env.inputs = [] ∧ coreTurn s = .next t) ∨
    (∃ n a rest t0, s.env.beenReset = true ∧ s.env.inputs = (n + 1, a) :: rest ∧ coreTurn s = .next t0
        ∧ t = t0.setInputs ((n, a) :: rest)) ∨
    (∃ n a rest, s.env.inputs = (n, a) :: rest ∧ (s.env.beenReset = true ∨ a.isReset = true)
        ∧ envAct a (s.setInputs rest) = .next t ∧ (n ≠ 0 → ∃ f, coreTurnIfReset s = .fault f)) := by
  have henv : ∀ a rest, envTurn a (s.setInputs rest) = .next t →
      (s.env.beenReset = true ∨ a.isReset = true) ∧ envAct a (s.setInputs rest) = .next t := by
    intro a rest he
    unfold envTurn at he
    split at he
    · rename_i hb
      exact ⟨by simpa using hb, he⟩
    · cases he
  unfold step turn at h
  split at h
  · rename_i hi
    unfold coreTurnIfReset at h
    split at h
    · exact .inl ⟨‹_›, hi, h⟩
    · cases h
  · rename_i a rest hi
    obtain ⟨h1, h2⟩ := henv _ _ h
    exact .inr (.inr ⟨0, a, rest, hi, h1, h2, fun h0 => absurd rfl h0⟩)
  · rename_i n a rest hi
    split at h
    · rename_i t0 hc
      cases h
      unfold coreTurnIfReset at hc
      split at hc
      · exact .inr (.inl ⟨n, a, rest, t0, ‹_›, hi, hc, rfl⟩)
      · cases hc
    · rename_i f hc
      obtain ⟨h1, h2⟩ := henv _ _ h
      exact .inr (.inr ⟨n + 1, a, rest, hi, h1, h2, fun _ => ⟨f, hc⟩⟩)
    · cases h

/-- The core's turn is a core step while decoding with no row pending, followed by the pull. -/
theorem coreTurn_next {s t : State} (h : coreTurn s = .next t) :
    s.drv.dstate = .decoding ∧ s.drv.rowPending = false ∧ ∃ u, coreStep s = .next u ∧ t = pull u := by
  unfold coreTurn at h
  split at h <;> try cases h
  rename_i hd
  split at h
  · cases h
  · rename_i hp
    split at h
    · rename_i u hu
      exact ⟨hd, by simpa using hp, u, hu, by cases h; rfl⟩
    · cases h
    · cases h

/-- A core step is a trap while reading the word, or the row that the word selects. -/
theorem coreStep_next {s t : State} (h : coreStep s = .next t) :
    (∃ c, fetchWord s = .error (.raise c) ∧ t = trapEntry .decodeError c s) ∨
    (∃ f w s1 i, fetchWord s = .ok (f, w, s1) ∧ decode f w = .ok i ∧ runElement i s1 = .next t) := by
  unfold coreStep at h
  rcases andThen_next h with ⟨⟨f, w, s1⟩, hr, hk⟩ | ⟨c, hr, ht⟩
  · right
    simp only [runWord] at hk
    split at hk
    · exact ⟨f, w, s1, _, hr, ‹_›, hk⟩
    · cases hk
  · exact .inl ⟨c, hr, ht⟩

/-- One row, or a length symbol and the distance symbol after it. -/
theorem runElement_next {i : Instr} {s t : State} (h : runElement i s = .next t) :
    (exec i s = .next t ∧ (i.isLength = false ∨ t.drv.dstate ≠ .decoding)) ∨
    (∃ u, exec i s = .next u ∧ i.isLength = true ∧ u.drv.dstate = .decoding ∧ distanceStep u = .next t) := by
  unfold runElement at h
  split at h
  · rename_i u hu
    split at h
    · rename_i hc
      simp only [Bool.and_eq_true, beq_iff_eq] at hc
      exact .inr ⟨u, hu, hc.1, hc.2, h⟩
    · rename_i hc
      cases h
      refine .inl ⟨hu, ?_⟩
      by_cases hl : i.isLength = true
      · right; intro hd; exact hc (by simp [hl, hd])
      · left; simpa using hl
  · cases h
  · cases h

/-- The distance half: a trap while reading the code, or the row of the distance symbol. -/
theorem distanceStep_next {s t : State} (h : distanceStep s = .next t) :
    (∃ c, decodeSym (fileLens s.inf.dLen) s = .error (.raise c) ∧ t = trapEntry .decodeError c s) ∨
    (∃ d s1 i, decodeSym (fileLens s.inf.dLen) s = .ok (d, s1) ∧ decode .dsym d = .ok i ∧ exec i s1 = .next t) := by
  unfold distanceStep at h
  rcases andThen_next h with ⟨⟨d, s1⟩, hr, hk⟩ | ⟨c, hr, ht⟩
  · right
    simp only [runWord] at hk
    split at hk
    · exact ⟨d, s1, _, hr, ‹_›, hk⟩
    · cases hk
  · exact .inl ⟨c, hr, ht⟩

/-- The pull writes PULLED and the count of free draws only. -/
@[simp] theorem pull_params (s : State) : (pull s).params = s.params := rfl
@[simp] theorem pull_inf (s : State) : (pull s).inf = s.inf := rfl
@[simp] theorem pull_flt (s : State) : (pull s).flt = s.flt := rfl
@[simp] theorem pull_pix (s : State) : (pull s).pix = s.pix := rfl
@[simp] theorem pull_drv (s : State) : (pull s).drv = s.drv := rfl
@[simp] theorem pull_mem (s : State) : (pull s).mem = s.mem := rfl
@[simp] theorem pull_rout (s : State) : (pull s).rout = s.rout := rfl
@[simp] theorem pull_cin (s : State) : (pull s).env.cin = s.env.cin := rfl
@[simp] theorem pull_cinEnd (s : State) : (pull s).env.cinEnd = s.env.cinEnd := rfl
@[simp] theorem pull_inputs (s : State) : (pull s).env.inputs = s.env.inputs := rfl
@[simp] theorem pull_beenReset (s : State) : (pull s).env.beenReset = s.env.beenReset := rfl

/-- The free draw stays between its bounds, whatever it is. -/
theorem pull_pulled (s : State) (h : pullLow s ≤ pullHigh s) :
    pullLow s ≤ (pull s).env.pulled ∧ (pull s).env.pulled ≤ pullHigh s := by
  have hm := Nat.mod_lt (Config.freePull s.freeCtr) (show 0 < pullHigh s - pullLow s + 1 by omega)
  simp only [pull]
  omega

/-- The word that INF_STATE selects: its format, and that reading it changes IPOS only. -/
theorem fetchWord_ok {s s1 : State} {f : Format} {w : Nat} (h : fetchWord s = .ok (f, w, s1)) :
    ∃ k, s1 = advance k s ∧ (8 * s.env.cin.length < 2 ^ 64 → s.inf.ipos.toNat ≤ 8 * s.env.cin.length →
        s.inf.ipos.toNat + k ≤ 8 * s.env.cin.length)
      ∧ match s.inf.infState with
        | .zhdr => f = .zhdr ∧ k = 16 ∧ w = nextBits 16 s
        | .blkhdr => f = .blkhdr ∧ k = 3 ∧ w = nextBits 3 s
        | .storedHdr => f = .stored ∧ k = 0 ∧ w = 2
        | .storedByte => f = .stored ∧ k = 0 ∧ w = 3
        | .dynHdr => f = .dynhdr ∧ k = 0 ∧ w = 4
        | .clSym => f = .clsym ∧ 1 ≤ k ∧ w < 19
        | .sym => f = .llsym ∧ 1 ≤ k ∧ w < 288
        | .matchByte => f = .micro ∧ k = 0 ∧ w = 7
        | .ended => f = .micro ∧ k = 0 ∧ w = 8 := by
  have hread : ∀ n, 0 < n → ∀ g : Format, (readBits n s).map (fun r => (g, r.1, r.2)) = .ok (f, w, s1) →
      f = g ∧ w = nextBits n s ∧ s1 = advance n s ∧ hasBits n s = true := by
    intro n hn g hm
    rcases hr : readBits n s with e | ⟨v, t⟩
    · simp [hr, Except.map] at hm
    · obtain ⟨hb, rfl, rfl⟩ := readBits_ok hr
      simp only [hr, Except.map, Except.ok.injEq, Prod.mk.injEq] at hm
      obtain ⟨rfl, rfl, rfl⟩ := hm
      exact ⟨rfl, rfl, rfl, hb.resolve_left (by omega)⟩
  have hsym : ∀ {b m : Nat} (v : Vector (BitVec b) m) (g : Format),
      (decodeSym (fileLens v) s).map (fun r => (g, r.1, r.2)) = .ok (f, w, s1) →
      f = g ∧ w < m ∧ ∃ k, 1 ≤ k ∧ s1 = advance k s ∧ (8 * s.env.cin.length < 2 ^ 64 → hasBits k s = true) := by
    intro b m v g hm
    rcases hr : decodeSym (fileLens v) s with e | ⟨x, t⟩
    · simp [hr, Except.map] at hm
    · obtain ⟨k, h1, _, _, _, h4, h5⟩ := decodeSym_ok hr
      have hlt := decodeSym_file_lt hr
      simp only [hr, Except.map, Except.ok.injEq, Prod.mk.injEq] at hm
      obtain ⟨rfl, rfl, rfl⟩ := hm
      exact ⟨rfl, hlt, k, h1, h4, h5⟩
  unfold fetchWord at h
  split at h <;> rename_i hs <;> try rw [hs]
  · obtain ⟨h1, h2, h3, h4⟩ := hread 16 (by omega) _ h
    exact ⟨16, h3, fun _ _ => by simpa using h4, h1, rfl, h2⟩
  · obtain ⟨h1, h2, h3, h4⟩ := hread 3 (by omega) _ h
    exact ⟨3, h3, fun _ _ => by simpa using h4, h1, rfl, h2⟩
  · cases h; exact ⟨0, by simp, by simp, rfl, rfl, rfl⟩
  · cases h; exact ⟨0, by simp, by simp, rfl, rfl, rfl⟩
  · cases h; exact ⟨0, by simp, by simp, rfl, rfl, rfl⟩
  · obtain ⟨h1, h2, k, h3, h4, h5⟩ := hsym _ _ h
    exact ⟨k, h4, fun hc _ => by simpa using h5 hc, h1, h3, h2⟩
  · obtain ⟨h1, h2, k, h3, h4, h5⟩ := hsym _ _ h
    exact ⟨k, h4, fun hc _ => by simpa using h5 hc, h1, h3, h2⟩
  · cases h; exact ⟨0, by simp, by simp, rfl, rfl, rfl⟩
  · cases h; exact ⟨0, by simp, by simp, rfl, rfl, rfl⟩

end Sys2Proof.Machine
end

