-- ==== Sys2Proof/Tests/Slice0.lean ====
section
/-! SUPPORT. The model's own tests: the well-formedness smoke test, a word of every row written out from 30_encoding, small
one-step tests with values calculated by hand from the rules, and a witness for the hypotheses of every obligation. -/

namespace Sys2Proof.Tests

-- One declaration at a time: many kernel evaluations at once need more thread stacks than the memory limit gives.
set_option Elab.async false

open Sys2Proof Sys2Proof.Machine

/-! ### Helpers -/

/-- WSIZE = 32768, MAX_STRIDE = 4096, IN_WINDOW_BYTES = 4, APPLY_COLOR_KEY = 1. -/
def params : Params := ⟨7, 4095, 0, true⟩

/-- A core after reset, with those parameters. -/
def base : State := { State.reset with params := params }

/-- A core that is decoding: INF_STATE, the delivered bytes, IPOS, and whether the source has signalled the end. -/
def at_ (k : InfState) (cin : List Byte) (pos : Nat) (fin : Bool) : State :=
  { base with
    inf := { Inf.reset with infState := k, ipos := BitVec.ofNat 64 pos }
    drv := { Drv.reset with dstate := .decoding, colortype := 0, bitdepth := 8, width := 4, height := 2 }
    flt := { Flt.reset with rphase := .data, pw := 4, ph := 2, pstride := 4 }
    env := { Env.reset with cin := cin, cinEnd := fin, pulled := divUp pos 8 } }

/-- What `f` sees of the next state, if there is one. -/
def see {α : Type} (r : Result) (f : State → α) : Option α :=
  match r with
  | .next t => some (f t)
  | .fault _ => none
  | .refused _ => none

/-- The hold that a step ends in. -/
def held (r : Result) : Option Fault :=
  match r with
  | .next _ => none
  | .fault x => some x
  | .refused _ => none

/-- DSTATE and ERRCAUSE after the step. -/
def cause (r : Result) : Option (DState × Cause) := see r fun t => (t.drv.dstate, t.drv.errcause)

/-- A row with these first bytes. -/
def rowOf (bs : List Byte) : Cells 8 := Cells.ofFn bs.length fun i => bs.getD i 0

/-- A complete row in the current buffer, about to be converted: colour type, depth, pixels in the row, bytes. -/
def rowState (ct bd : Byte) (pw : BitVec 32) (bs : List Byte) (x : Pix) : State :=
  let s := at_ .sym [] 0 false
  (((s.setDrv { s.drv with colortype := ct, bitdepth := bd }).setFlt { s.flt with pw := pw }).setPix x).setCurRow (rowOf bs)

/-- The delivered pixels of the record presented. -/
def pixels (r : Result) : Option (List Byte) := (see r fun t => t.rout.map RowRecord.pixels).join

/-- A state in CL_SYM with the counts 257 + 1, LIDX and LENS given. -/
def clState (cin : List Byte) (lidx : BitVec 9) (lens : Nat → BitVec 4) : State :=
  let s := at_ .clSym cin 0 true
  s.setInf { s.inf with nlen := 257, ndist := 1, lidx := lidx, lens := lengthFile 316 lens, clLen := lengthFile 19 fun _ => 5 }

/-- A state in SYM with the fixed tables and a full history. -/
def symState (cin : List Byte) : State :=
  let s := at_ .sym cin 0 true
  s.setInf { s.inf with llLen := fixedLlLen, dLen := fixedDLen, hist := 32768 }

/-- Length 3 and distance 1 in the fixed codes, in the stream's first twelve bits. -/
def lengthState : State := symState [0b01000000, 0]

/-! ### Well-formedness and decoding -/

/-- A pair with a row of its own is no PIX_OTHER; every other pair is (R278). -/
theorem test_wf_pixOther : (Instr.pixOther 0 8).wf = false ∧ (Instr.pixOther 6 16).wf = false
    ∧ (Instr.pixOther 3 16).wf = true ∧ (Instr.pixOther 1 8).wf = true := by decide +kernel

/-- R71: the word is `{FLG, CMF}`. R72: bit 0 is BFINAL, bits 2:1 BTYPE. -/
theorem test_words_headers :
    decode .zhdr 0x9C78 = .ok (.zhdr 0x78 0x9C)
    ∧ decode .blkhdr 0b000 = .ok (.blkStored false) ∧ decode .blkhdr 0b001 = .ok (.blkStored true)
    ∧ decode .blkhdr 0b010 = .ok (.blkFixed false) ∧ decode .blkhdr 0b101 = .ok (.blkDynamic true)
    ∧ decode .blkhdr 0b110 = .ok (.blkReserved false) := by decide +kernel

/-- R89: the rows without bits are selected by INF_STATE (R13). -/
theorem test_words_without_bits :
    decode .stored 2 = .ok .storedHdr ∧ decode .stored 3 = .ok .storedByte ∧ decode .dynhdr 4 = .ok .dynHdr
    ∧ decode .micro 7 = .ok .matchByte ∧ decode .micro 8 = .ok .endStep := by decide +kernel

/-- R76: the code-length symbols from 0 on. -/
def clRows : List Instr :=
  [.cl0, .cl1, .cl2, .cl3, .cl4, .cl5, .cl6, .cl7, .cl8, .cl9, .cl10, .cl11,
    .cl12, .cl13, .cl14, .cl15, .cl16, .cl17, .cl18]

/-- R77: the literal/length symbols from 256 on. -/
def llRows : List Instr :=
  [.eob, .len257, .len258, .len259, .len260, .len261, .len262, .len263, .len264, .len265, .len266, .len267,
    .len268, .len269, .len270, .len271, .len272, .len273, .len274, .len275, .len276, .len277, .len278, .len279,
    .len280, .len281, .len282, .len283, .len284, .len285, .ll286, .ll287]

/-- R79: the distance symbols from 0 on. -/
def dRows : List Instr :=
  [.dist0, .dist1, .dist2, .dist3, .dist4, .dist5, .dist6, .dist7, .dist8, .dist9, .dist10, .dist11,
    .dist12, .dist13, .dist14, .dist15, .dist16, .dist17, .dist18, .dist19, .dist20, .dist21, .dist22, .dist23,
    .dist24, .dist25, .dist26, .dist27, .dist28, .dist29, .dist30, .dist31]

/-- The words from `w` on decode to these rows. -/
def wordsGive (f : Format) (w : Nat) (rows : List Instr) : Bool :=
  match rows with
  | [] => true
  | i :: rest => decide (decode f w = .ok i) && wordsGive f (w + 1) rest

/-- R76, R77, R79: every symbol number of the three alphabets, and the first that is none. -/
theorem test_words_symbols :
    wordsGive .clsym 0 clRows = true ∧ decode .clsym 19 = .error (.noRow .clsym 19)
    ∧ decode .llsym 0 = .ok (.lit 0) ∧ decode .llsym 255 = .ok (.lit 255)
    ∧ wordsGive .llsym 256 llRows = true ∧ decode .llsym 288 = .error (.noRow .llsym 288)
    ∧ wordsGive .dsym 0 dRows = true ∧ decode .dsym 32 = .error (.tooWide .dsym 32) := by decide +kernel

/-- R82, R229: the five filters and one tag of every reserved row. -/
theorem test_words_ftag :
    decode .ftag 0 = .ok .filtNone ∧ decode .ftag 1 = .ok .filtSub ∧ decode .ftag 2 = .ok .filtUp
    ∧ decode .ftag 3 = .ok .filtAvg ∧ decode .ftag 4 = .ok .filtPaeth ∧ decode .ftag 5 = .ok .filtReserved5
    ∧ decode .ftag 6 = .ok (.filtReserved6to7 0) ∧ decode .ftag 15 = .ok (.filtReserved8to15 7)
    ∧ decode .ftag 16 = .ok (.filtReserved16to31 0) ∧ decode .ftag 63 = .ok (.filtReserved32to63 31)
    ∧ decode .ftag 64 = .ok (.filtReserved64to127 0) ∧ decode .ftag 255 = .ok (.filtReserved128to255 127) := by decide +kernel

/-- R83, R263 to R278: the word is `{COLORTYPE, BITDEPTH}`. -/
theorem test_words_pixfmt :
    decode .pixfmt 0x0001 = .ok .pixG1 ∧ decode .pixfmt 0x0002 = .ok .pixG2 ∧ decode .pixfmt 0x0004 = .ok .pixG4
    ∧ decode .pixfmt 0x0008 = .ok .pixG8 ∧ decode .pixfmt 0x0208 = .ok .pixRgb8 ∧ decode .pixfmt 0x0301 = .ok .pixI1
    ∧ decode .pixfmt 0x0302 = .ok .pixI2 ∧ decode .pixfmt 0x0304 = .ok .pixI4 ∧ decode .pixfmt 0x0308 = .ok .pixI8
    ∧ decode .pixfmt 0x0408 = .ok .pixGa8 ∧ decode .pixfmt 0x0608 = .ok .pixRgba8 ∧ decode .pixfmt 0x0010 = .ok .pixG16
    ∧ decode .pixfmt 0x0210 = .ok .pixRgb16 ∧ decode .pixfmt 0x0410 = .ok .pixGa16
    ∧ decode .pixfmt 0x0610 = .ok .pixRgba16 ∧ decode .pixfmt 0x0108 = .ok (.pixOther 1 8) := by decide +kernel

/-- R88: command codes and answer bits; a word wider than its format has no row. -/
theorem test_words_cmd :
    decode .cmd 0 = .ok .cmdIllegal0 ∧ decode .cmd 1 = .ok .reset ∧ decode .cmd 2 = .ok .commitHeader
    ∧ decode .cmd 3 = .ok .start ∧ decode .cmd 4 = .ok (.cmdIllegal4to7 0) ∧ decode .cmd 7 = .ok (.cmdIllegal4to7 3)
    ∧ decode .rowans 0 = .ok .answerContinue ∧ decode .rowans 1 = .ok .answerStop
    ∧ decode .cmd 8 = .error (.tooWide .cmd 8) := by decide +kernel

/-- A table word laid for the next step is run by it: the zlib header 78 9C leads to BLKHDR (R100). -/
theorem test_fetch_word : see (step (base.withFetchWord 16 0x9C78)) (fun t => t.inf.infState) = some .blkhdr := by
  decide +kernel

/-! ### One step of every instruction -/

/-- R100: 78 9C is valid; method 9, window 8, a bad check and FDICT are not. -/
theorem test_zhdr :
    see (exec (.zhdr 0x78 0x9C) base) (fun t => t.inf.infState) = some .blkhdr
    ∧ cause (exec (.zhdr 0x79 0x9B) base) = some (.error, .zlibHeader)
    ∧ cause (exec (.zhdr 0x88 0x1C) base) = some (.error, .zlibHeader)
    ∧ cause (exec (.zhdr 0x78 0x9D) base) = some (.error, .zlibHeader)
    ∧ cause (exec (.zhdr 0x78 0x20) base) = some (.error, .zlibHeader) := by decide +kernel

/-- R101, R104, R106. -/
theorem test_blkhdr :
    see (exec (.blkStored true) base) (fun t => (t.inf.bfinal, t.inf.btype, t.inf.infState)) = some (true, 0, .storedHdr)
    ∧ see (exec (.blkFixed false) base) (fun t => (t.inf.btype, t.inf.llLen[143], t.inf.llLen[144], t.inf.llLen[256],
        t.inf.llLen[280], t.inf.dLen[31])) = some (1, 8, 9, 7, 8, 5)
    ∧ see (exec (.blkDynamic true) base) (fun t => (t.inf.btype, t.inf.infState)) = some (2, .dynHdr)
    ∧ cause (exec (.blkReserved true) base) = some (.error, .blockType) := by decide +kernel

/-- R102: at bit 3 the reader aligns to byte 1; LEN = 0x0105, NLEN its complement. -/
theorem test_storedHdr :
    see (exec .storedHdr (at_ .storedHdr [0, 0x05, 0x01, 0xFA, 0xFE] 3 true))
      (fun t => (t.inf.storedRem, t.inf.ipos, t.inf.infState)) = some (0x0105, 40, .storedByte)
    ∧ cause (exec .storedHdr (at_ .storedHdr [0, 0x05, 0x01, 0xFA, 0xFF] 3 true)) = some (.error, .storedNlen) := by
  decide +kernel

/-- R103: the last byte of a final block goes to WIN and to the row, and END follows. -/
theorem test_storedByte :
    let s := at_ .storedByte [0xA5] 0 true
    see (exec .storedByte (s.setInf { s.inf with storedRem := 1, bfinal := true }))
      (fun t => (t.mem.win, t.curRow, t.inf.wpos, t.inf.hist, t.inf.infState))
      = some ([(0, 0xA5)], [(0, 0xA5)], 1, 1, .ended) := by decide +kernel

/-- R105: HLIT = 0, HDIST = 0, HCLEN = 0: four lengths, here 1 for symbols 16 and 17, in the order of R75. -/
theorem test_dynHdr :
    see (exec .dynHdr (at_ .dynHdr [0x00, 0x40, 0x02, 0x00] 0 true))
      (fun t => (t.inf.nlen, t.inf.ndist, t.inf.clLen.toList.take 2, t.inf.clLen.toList.drop 16, t.inf.ipos))
      = some (257, 1, [0, 0], [1, 1, 0], 26)
    ∧ cause (exec .dynHdr (at_ .dynHdr [0x1E, 0, 0, 0] 0 true)) = some (.error, .dynCounts) := by decide +kernel

/-- R110: symbol n appends the length n. -/
theorem test_cl_literals :
    ([Instr.cl0, .cl1, .cl2, .cl3, .cl4, .cl5, .cl6, .cl7].map
      fun i => see (exec i (clState [] 5 fun _ => 9)) fun t => (t.inf.lens[5], t.inf.lens[6], t.inf.lidx))
      = [some (0, 9, 6), some (1, 9, 6), some (2, 9, 6), some (3, 9, 6), some (4, 9, 6), some (5, 9, 6), some (6, 9, 6),
          some (7, 9, 6)]
    ∧ ([Instr.cl8, .cl9, .cl10, .cl11, .cl12, .cl13, .cl14, .cl15].map
      fun i => see (exec i (clState [] 5 fun _ => 0)) fun t => (t.inf.lens[5], t.inf.lens[6], t.inf.lidx))
      = [some (8, 0, 6), some (9, 0, 6), some (10, 0, 6), some (11, 0, 6), some (12, 0, 6), some (13, 0, 6), some (14, 0, 6),
          some (15, 0, 6)] := by decide +kernel

/-- R111 to R113: the repeats with their greatest extra values, 6, 10 and 138. -/
theorem test_cl_repeats :
    see (exec .cl16 (clState [0xFF] 5 fun i => if i = 4 then 7 else 9)) (fun t => (t.inf.lens.toList.drop 4 |>.take 8, t.inf.lidx,
        t.inf.ipos)) = some ([7, 7, 7, 7, 7, 7, 7, 9], 11, 2)
    ∧ see (exec .cl17 (clState [0xFF] 5 fun _ => 9)) (fun t => (t.inf.lens[14], t.inf.lens[15], t.inf.lidx, t.inf.ipos))
      = some (0, 9, 15, 3)
    ∧ see (exec .cl18 (clState [0xFF] 5 fun _ => 9)) (fun t => (t.inf.lens[142], t.inf.lens[143], t.inf.lidx, t.inf.ipos))
      = some (0, 9, 143, 7) := by decide +kernel

/-- R111 to R113: no previous length; one length too many. -/
theorem test_cl_errors :
    cause (exec .cl16 (clState [] 0 fun _ => 0)) = some (.error, .clRepeatNoprev)
    ∧ cause (exec .cl16 (clState [0xFF] 253 fun _ => 8)) = some (.error, .clRepeatOverrun)
    ∧ cause (exec .cl17 (clState [0xFF] 249 fun _ => 8)) = some (.error, .clRepeatOverrun)
    ∧ cause (exec .cl18 (clState [0xFF] 121 fun _ => 8)) = some (.error, .clRepeatOverrun) := by decide +kernel

/-- R142, R143. -/
theorem test_lit_eob :
    see (exec (.lit 0x41) (symState [])) (fun t => (t.mem.win, t.curRow, t.inf.infState))
      = some ([(0, 0x41)], [(0, 0x41)], .sym)
    ∧ see (exec .eob (symState [])) (fun t => t.inf.infState) = some .blkhdr := by decide +kernel

/-- Every row of the list, run on the state, leaves the number beside it. -/
def leaves (s : State) (f : State → Nat) (rows : List Instr) (values : List Nat) : Bool :=
  match rows, values with
  | [], [] => true
  | i :: rest, v :: vs => decide (see (exec i s) f = some v) && leaves s f rest vs
  | _, _ => false

/-- R150 to R178: the shortest length of every length symbol. -/
def lengthBases : List Nat :=
  [3, 4, 5, 6, 7, 8, 9, 10, 11, 13, 15, 17, 19, 23, 27, 31, 35, 43, 51, 59, 67, 83, 99, 115, 131, 163, 195, 227, 258]

/-- R158 to R177: the longest length of every length symbol with extra bits. -/
def lengthTops : List Nat := [12, 14, 16, 18, 22, 26, 30, 34, 42, 50, 58, 66, 82, 98, 114, 130, 162, 194, 226, 258]

/-- R180 to R209: the shortest distance of every distance symbol. -/
def distanceBases : List Nat :=
  [1, 2, 3, 4, 5, 7, 9, 13, 17, 25, 33, 49, 65, 97, 129, 193, 257, 385, 513, 769]
    ++ [1025, 1537, 2049, 3073, 4097, 6145, 8193, 12289, 16385, 24577]

/-- R184 to R209: the longest distance of every distance symbol with extra bits. -/
def distanceTops : List Nat :=
  [6, 8, 12, 16, 24, 32, 48, 64, 96, 128, 192, 256, 384, 512, 768, 1024, 1536, 2048, 3072, 4096]
    ++ [6144, 8192, 12288, 16384, 24576, 32768]

/-- All extra bits 0: R78, R79. -/
theorem test_bases :
    leaves (symState [0]) (fun t => t.inf.matchLen.toNat) (llRows.drop 1 |>.take 29) lengthBases = true
    ∧ leaves (symState [0, 0]) (fun t => t.inf.matchDist.toNat) (dRows.take 30) distanceBases = true := by decide +kernel

/-- All extra bits 1: R78, R79. -/
theorem test_tops :
    leaves (symState [0xFF]) (fun t => t.inf.matchLen.toNat) (llRows.drop 9 |>.take 20) lengthTops = true
    ∧ leaves (symState [0xFF, 0xFF]) (fun t => t.inf.matchDist.toNat) (dRows.drop 4 |>.take 26) distanceTops = true := by
  decide +kernel

/-- R144, R146, R147, R301. -/
theorem test_symbol_errors :
    cause (exec .ll286 (symState [])) = some (.error, .lengthSymbol)
    ∧ cause (exec .ll287 (symState [])) = some (.error, .lengthSymbol)
    ∧ cause (exec .dist30 (symState [])) = some (.error, .distanceSymbol)
    ∧ cause (exec .dist31 (symState [])) = some (.error, .distanceSymbol)
    ∧ cause (exec .dist2 (at_ .sym [] 0 false)) = some (.error, .distanceTooFar)
    ∧ cause (exec .endStep (symState [])) = some (.error, .dataEndedEarly) := by decide +kernel

/-- R148, R179: at WPOS 0 a distance of 1 reads the last cell of the window; the last byte of a match returns to SYM. -/
theorem test_matchByte :
    let s := at_ .matchByte [] 0 false
    see (exec .matchByte ((s.setInf { s.inf with matchLen := 1, matchDist := 1, hist := 32768 }).setMem
      { s.mem with win := [(1, 7), (32767, 0x5A)] }))
      (fun t => (t.mem.win, t.inf.matchLen, t.inf.infState, t.inf.hist))
      = some ([(0, 0x5A), (1, 7), (32767, 0x5A)], 0, .sym, 32768) := by decide +kernel

/-- R221, R229: the tags. -/
theorem test_ftags :
    ([Instr.filtNone, .filtSub, .filtUp, .filtAvg, .filtPaeth].map
      fun i => see (exec i base) fun t => (t.flt.ftype, t.flt.rphase))
      = [some (0, .data), some (1, .data), some (2, .data), some (3, .data), some (4, .data)]
    ∧ ([Instr.filtReserved5, .filtReserved6to7 1, .filtReserved8to15 0, .filtReserved16to31 0, .filtReserved32to63 0,
        .filtReserved64to127 0, .filtReserved128to255 0].map fun i => cause (exec i base))
      = List.replicate 7 (some (.error, .filterType)) := by decide +kernel

/-- R223 to R228, R230: three bytes of every filter, one byte per pixel, above the row 10 20 30. -/
theorem test_reconstruct :
    let prev := rowOf [10, 20, 30]
    let cur := rowOf [250, 10, 1]
    (reconstruct 0 1 prev 3 cur = rowOf [250, 10, 1]) ∧ (reconstruct 1 1 prev 3 cur = rowOf [250, 4, 5])
    ∧ (reconstruct 2 1 prev 3 cur = rowOf [4, 30, 31]) ∧ (reconstruct 3 1 prev 3 cur = rowOf [255, 147, 89])
    ∧ (reconstruct 4 1 prev 3 cur = rowOf [4, 20, 31]) := by decide +kernel

/-- R231: ties go to a before b before c. -/
theorem test_paeth :
    paeth 1 2 3 = 1 ∧ paeth 3 2 1 = 3 ∧ paeth 2 3 1 = 3 ∧ paeth 10 0 5 = 5 ∧ paeth 5 5 5 = 5 ∧ paeth 255 255 0 = 255 := by
  decide +kernel

/-- R251, R252, R262 to R266: samples from the most significant bits on, scaled; the key on raw samples. -/
theorem test_pix_gray :
    pixels (exec .pixG1 (rowState 0 1 3 [0b10100000] Pix.reset)) = some [255, 0, 255]
    ∧ pixels (exec .pixG2 (rowState 0 2 4 [0b00011011] Pix.reset)) = some [0, 85, 170, 255]
    ∧ pixels (exec .pixG4 (rowState 0 4 3 [0x1F, 0x80] Pix.reset)) = some [17, 255, 136]
    ∧ pixels (exec .pixG8 (rowState 0 8 2 [7, 9] { Pix.reset with trnsValid := true, trnsGray := 9 }))
      = some [7, 255, 9, 0]
    ∧ pixels (exec .pixG4 (rowState 0 4 1 [0x30] { Pix.reset with trnsValid := true, trnsGray := 3 })) = some [51, 0] := by
  decide +kernel

/-- R253, R254, R268 to R271: the palette and the transparent index; an entry nothing has written is black. -/
theorem test_pix_indexed :
    let x := { Pix.reset with trnsValid := true, trnsIndex := 1 }
    let lay (s : State) := s.setMem { s.mem with pal := [(1, 0x112233), (2, 0x445566)] }
    pixels (exec .pixI1 (lay (rowState 3 1 2 [0b01000000] Pix.reset))) = some [0, 0, 0, 0x11, 0x22, 0x33]
    ∧ pixels (exec .pixI2 (lay (rowState 3 2 2 [0b01100000] x))) = some [0x11, 0x22, 0x33, 0, 0x44, 0x55, 0x66, 255]
    ∧ pixels (exec .pixI4 (lay (rowState 3 4 1 [0x20] x))) = some [0x44, 0x55, 0x66, 255]
    ∧ pixels (exec .pixI8 (lay (rowState 3 8 2 [1, 255] x))) = some [0x11, 0x22, 0x33, 0, 0, 0, 0, 255] := by
  decide +kernel

/-- R267, R272, R273, R262. -/
theorem test_pix_colour :
    pixels (exec .pixRgb8 (rowState 2 8 1 [1, 2, 3] Pix.reset)) = some [1, 2, 3]
    ∧ pixels (exec .pixRgb8 (rowState 2 8 2 [1, 2, 3, 1, 2, 4]
        { Pix.reset with trnsValid := true, trnsR := 1, trnsG := 2, trnsB := 3 })) = some [1, 2, 3, 0, 1, 2, 4, 255]
    ∧ pixels (exec .pixGa8 (rowState 4 8 2 [1, 2, 3, 4] Pix.reset)) = some [1, 2, 3, 4]
    ∧ pixels (exec .pixRgba8 (rowState 6 8 1 [1, 2, 3, 4] { Pix.reset with trnsValid := true })) = some [1, 2, 3, 4] := by
  decide +kernel

/-- R36, R236, R297: the record of row 1 of pass 4 of an interlaced image, and ROWCNT. -/
theorem test_record :
    let s := rowState 0 8 4 [1, 2, 3, 4] Pix.reset
    see (exec .pixG8 (s.setFlt { s.flt with pass := 4, prow := 1 })) (fun t => (t.drv.rowPending, t.drv.rowcnt,
      t.rout.map fun r => (r.x, r.y, r.width, r.xstep, r.bpp, r.pixtype)))
      = some (true, 1, some (2, 4, 4, 4, 8, 0)) := by decide +kernel

/-- R274 to R278: refused formats. -/
theorem test_pix_refused :
    ([Instr.pixG16, .pixRgb16, .pixGa16, .pixRgba16, .pixOther 1 8].map fun i =>
      see (exec i base) fun t => (t.drv.dstate, t.drv.errcode, t.drv.errcause, t.drv.cmdstat))
      = List.replicate 5 (some (.error, .unsupportedFeature, .header, .unsupportedFeature)) := by decide +kernel

/-- A core with a header in UNINIT: RGB 8, 3 columns, 2 rows. -/
def withHeader (interlace : Byte) : State :=
  base.setDrv { base.drv with width := 3, height := 2, bitdepth := 8, colortype := 2, interlace := interlace }

/-- The same header accepted. -/
def headerReady (interlace : Byte) : State :=
  (withHeader interlace).setDrv { (withHeader interlace).drv with dstate := .headerReady }

/-- R292: an accepted header; INTERLACE 2; a row of 4098 bytes in buffers of 4096. -/
theorem test_commitHeader :
    see (exec .commitHeader (withHeader 1)) (fun t => (t.drv.dstate, t.drv.cmdstat)) = some (.headerReady, .success)
    ∧ cause (exec .commitHeader (withHeader 2)) = some (.error, .header)
    ∧ cause (exec .commitHeader ((withHeader 0).setDrv { (withHeader 0).drv with width := 1366 }))
      = some (.error, .header) := by decide +kernel

/-- R293, R233: a plain image starts pass 0; an interlaced one pass 1 of one pixel. RAWDEFLATE skips the zlib header. -/
theorem test_start :
    see (exec .start (headerReady 0)) (fun t => (t.drv.dstate, t.inf.infState, t.flt.pw, t.flt.ph, t.flt.pstride))
      = some (.decoding, .zhdr, 3, 2, 9)
    ∧ see (exec .start ((headerReady 1).setDrv { (headerReady 1).drv with rawDeflate := true }))
      (fun t => (t.inf.infState, t.flt.pass, t.flt.pw, t.flt.ph, t.flt.pstride)) = some (.blkhdr, 1, 1, 1, 3) := by
  decide +kernel

/-- R291, R302. -/
theorem test_reset_illegal :
    see (exec .reset (headerReady 1)) (fun t => (t.drv, t.env.beenReset)) = some (Drv.reset, true)
    ∧ see (exec .cmdIllegal0 base) (fun t => (t.drv.dstate, t.drv.cmdstat)) = some (.uninit, .invalidParameter)
    ∧ see (exec (.cmdIllegal4to7 3) base) (fun t => (t.drv.dstate, t.drv.cmdstat)) = some (.uninit, .invalidParameter) := by
  decide +kernel

/-- A row is pending: row 0 or row 1 of a 4 × 2 image. -/
def pending (prow : BitVec 32) (interlace : Byte) : State :=
  let s := at_ .sym [] 0 true
  ((s.setDrv { s.drv with rowPending := true, interlace := interlace }).setFlt
    { s.flt with prow := prow, rx := 4, pass := if interlace = 1 then 1 else 0, ph := if interlace = 1 then 1 else 2 }).setRout
    (some ⟨0, 0, 4, 1, 8, 0, .thisCore, []⟩)

/-- R298, R232, R300: the next row; the end of the image. In Adam7 the pass after pass 1 of a 4 × 2 image is pass 4. -/
theorem test_answerContinue :
    see (exec .answerContinue (pending 0 0)) (fun t => (t.drv.dstate, t.drv.rowPending, t.flt.prow, t.flt.cursel, t.flt.rphase))
      = some (.decoding, false, 1, true, .tag)
    ∧ see (exec .answerContinue (pending 1 0)) (fun t => (t.drv.dstate, t.drv.stopped)) = some (.done, false)
    ∧ see (exec .answerContinue (pending 0 1)) (fun t => (t.drv.dstate, t.flt.pass, t.flt.pw, t.flt.ph))
      = some (.decoding, 4, 1, 1) := by decide +kernel

/-- R299. -/
theorem test_answerStop :
    see (exec .answerStop (pending 0 0)) (fun t => (t.drv.dstate, t.drv.stopped, t.drv.rowPending, t.rout))
      = some (.done, true, false, none) := by decide +kernel

/-! ### Stepping -/

/-- R12, R371: a step in DECODING runs the element at IPOS; with no bits delivered it waits; after `cin_eos` it raises. -/
theorem test_step :
    see (step (at_ .zhdr [0x78, 0x9C] 0 false)) (fun t => (t.inf.ipos, t.inf.infState)) = some (16, .blkhdr)
    ∧ held (step (at_ .zhdr [0x78] 0 false)) = some .awaitSource
    ∧ cause (step (at_ .zhdr [0x78] 0 true)) = some (.error, .truncated) := by decide +kernel

/-- R141: length 3 (symbol 257, code 0000001) and distance 1 (symbol 0, code 00000) in one step. -/
theorem test_step_match :
    see (step lengthState) (fun t => (t.inf.matchLen, t.inf.matchDist, t.inf.ipos, t.inf.infState))
      = some (3, 1, 12, .matchByte) := by decide +kernel

/-- R294, R295, R24: a CFG write, the read back, PAL_COUNT saturated, a misaligned access. -/
theorem test_cfg :
    see (envAct (.cfgWrite 0x014 640) base) (fun t => t.drv.width) = some 640
    ∧ see (envAct (.cfgWrite 0x028 0x10001) base) (fun t => t.pix.palCount) = some 256
    ∧ see (envAct (.cfgWrite 0x7FC 0xFF112233) base) (fun t => t.mem.pal) = some [(255, 0x112233)]
    ∧ see (envAct (.cfgRead 0x018) (withHeader 0)) (fun t => t.env.rdata) = some (some 2)
    ∧ (envAct (.cfgRead 0x019) base).isRefused = true := by decide +kernel

/-- R32: FLAGS of a core that is decoding in pass 4 of a final fixed block, with a row pending. -/
theorem test_flags :
    let s := pending 0 0
    ((s.setInf { s.inf with bfinal := true, btype := 1 }).setFlt { s.flt with pass := 4 }).flags = 0x460D := by
  decide +kernel

/-! ### Witnesses: every obligation's hypotheses are met, clause by clause -/

/-- A next state can be named. -/
theorem exists_next {r : Result} (h : r.isNext = true) : ∃ t, r = .next t := by
  cases r with
  | next t => exact ⟨t, rfl⟩
  | fault _ => simp [Result.isNext] at h
  | refused _ => simp [Result.isNext] at h

/-- O1. -/
theorem witness_DecodeOfEncode :
    (Instr.filtReserved128to255 127).wf = true ∧ (Instr.pixOther 255 255).wf = true := by decide +kernel

/-- O2. -/
theorem witness_EncodeOfDecode : decode .zhdr 0xFFFF = .ok (.zhdr 0xFF 0xFF) ∧ decode .llsym 287 = .ok .ll287 := by
  decide +kernel

/-- O4: the last 16 bits; 16 bits wanted of 15. -/
theorem witness_ReadBitsTakesTheNextBits :
    (16 ≤ 16 ∧ 8 * (at_ .zhdr [1, 2] 0 true).env.cin.length < 2 ^ 64
      ∧ (at_ .zhdr [1, 2] 0 true).inf.ipos.toNat + 16 ≤ 8 * (at_ .zhdr [1, 2] 0 true).env.cin.length)
    ∧ (8 * (at_ .zhdr [1, 2] 1 true).env.cin.length < (at_ .zhdr [1, 2] 1 true).inf.ipos.toNat + 16
      ∧ 0 < 16 ∧ (at_ .zhdr [1, 2] 1 true).env.cinEnd = true) := by decide +kernel

/-- One symbol of every length 1 to 14 and two of length 15. -/
def deepLens : List Nat := [1, 2, 3, 4, 5, 6, 7, 8, 9, 10, 11, 12, 13, 14, 15, 15]

/-- O5: the last code of 15 bits, all ones, at the end of the stream. -/
theorem witness_DecodeSymReadsCanonicalCodes :
    let s := at_ .sym [0xFF, 0xFF] 1 true
    (∀ l ∈ deepLens, l ≤ 15) ∧ kraft deepLens ≤ 2 ^ 15 ∧ deepLens[15]? = some 15 ∧ 0 < 15
    ∧ 8 * s.env.cin.length < 2 ^ 64 ∧ s.inf.ipos.toNat + 15 ≤ 8 * s.env.cin.length
    ∧ ∀ j, j < 15 → cinBit s.env.cin (s.inf.ipos.toNat + j) = (canonCode deepLens 15).testBit (15 - 1 - j) := by
  decide +kernel

/-- O7: a complete, an empty and an incomplete code, with exactly 15 bits left. -/
theorem witness_NoCodeOnlyInIncompleteCodes :
    let s := at_ .sym [0xFF, 0xFF] 1 true
    8 * s.env.cin.length < 2 ^ 64 ∧ s.inf.ipos.toNat + 15 ≤ 8 * s.env.cin.length
    ∧ ((∀ l ∈ deepLens, l ≤ 15) ∧ kraft deepLens = 2 ^ 15) ∧ kraft [0, 0] = 0
    ∧ ((∀ l ∈ [1], l ≤ 15) ∧ decodeSym [1] s = .error (.raise .huffNocode)) := by decide +kernel

/-- O8: over-subscribed, empty, complete, a single code of length 1, incomplete. -/
theorem witness_CheckLengthsByCodeSpace :
    (∀ l ∈ deepLens, l ≤ 15) ∧ 2 ^ 15 < kraft (15 :: deepLens) ∧ kraft [0] = 0 ∧ kraft deepLens = 2 ^ 15
    ∧ (kraft [0, 1] < 2 ^ 15 ∧ CodeKind.d ≠ .cl ∧ maxLength [0, 1] = 1)
    ∧ (0 < kraft [1] ∧ kraft [1] < 2 ^ 15 ∧ CodeKind.cl = .cl)
    ∧ (0 < kraft [15] ∧ kraft [15] < 2 ^ 15 ∧ maxLength [15] ≠ 1) := by decide +kernel

/-- O10: a valid and an invalid header; 16 bits at hand, and 15. -/
theorem witness_ZlibHeaderIsChecked :
    ((0x78 : Byte).toNat % 16 = 8 ∧ (0x78 : Byte).toNat / 16 ≤ 7
      ∧ ((0x78 : Byte).toNat * 256 + (0x9C : Byte).toNat) % 31 = 0 ∧ (0x9C : Byte).getLsbD 5 = false)
    ∧ (0x79 : Byte).toNat % 16 ≠ 8
    ∧ (let s := at_ .zhdr [0x78, 0x9C] 0 true;
      s.inf.infState = .zhdr ∧ 8 * s.env.cin.length < 2 ^ 64 ∧ s.inf.ipos.toNat + 16 ≤ 8 * s.env.cin.length)
    ∧ (let s := at_ .zhdr [0x78, 0x9C] 1 true;
      s.inf.infState = .zhdr ∧ 8 * s.env.cin.length < s.inf.ipos.toNat + 16 ∧ s.env.cinEnd = true) := by decide +kernel

/-- O11: the four types in the last three bits of a byte, and two bits only. -/
theorem witness_BlockHeaderStartsABlock :
    (∀ k : Fin 4, let s := at_ .blkhdr [BitVec.ofNat 8 (64 * k.val)] 5 true;
      s.inf.infState = .blkhdr ∧ s.inf.ipos.toNat + 3 ≤ 8 * s.env.cin.length ∧ nextBits 2 (advance 1 s) = k.val)
    ∧ (let s := at_ .blkhdr [0] 6 true;
      s.inf.infState = .blkhdr ∧ 8 * s.env.cin.length < s.inf.ipos.toNat + 3 ∧ s.env.cinEnd = true) := by decide +kernel

/-- O12: LEN 5 and LEN 0 with their complements, a wrong complement, a short stream. -/
theorem witness_StoredHeaderAlignsAndChecks :
    (∀ bs ∈ [([5, 0, 0xFA, 0xFF] : List Byte), [0, 0, 0xFF, 0xFF]], let s := at_ .storedHdr (0 :: bs) 3 true;
      s.inf.ipos.toNat ≤ 8 * s.env.cin.length ∧ (alignByte s).inf.ipos.toNat + 32 ≤ 8 * s.env.cin.length
        ∧ nextBits 16 (alignByte s) = nextBits 16 (advance 16 (alignByte s)) ^^^ 0xFFFF)
    ∧ (let s := at_ .storedHdr [0, 5, 0, 0xFA, 0x7F] 3 true;
      (alignByte s).inf.ipos.toNat + 32 ≤ 8 * s.env.cin.length
        ∧ nextBits 16 (alignByte s) ≠ nextBits 16 (advance 16 (alignByte s)) ^^^ 0xFFFF)
    ∧ (let s := at_ .storedHdr [0, 5, 0, 0xFA] 3 true;
      s.inf.ipos.toNat ≤ 8 * s.env.cin.length ∧ 8 * s.env.cin.length < (alignByte s).inf.ipos.toNat + 32
        ∧ s.env.cinEnd = true) := by decide +kernel

/-- A dynamic header with these counts, then code-length lengths, in `k` bytes. -/
def dynState (k hlit hdist hclen : Nat) (clls : List Nat) : State :=
  at_ .dynHdr (packBytes k (Element.bits [] [] [] 0 (.dyn hlit hdist hclen clls))) 0 true

/-- O13: 286 + 30 lengths with all 19 code-length lengths, in 9 bytes; too few count bits; 287 and 31; too few lengths. -/
theorem witness_DynamicHeaderReadsCodeLengths :
    (let s := dynState 9 29 29 15 [1, 1];
      8 * s.env.cin.length < 2 ^ 64 ∧ nextBits 5 s + 257 ≤ 286 ∧ nextBits 5 (advance 5 s) + 1 ≤ 30
        ∧ s.inf.ipos.toNat + 14 + 3 * (nextBits 4 (advance 10 s) + 4) ≤ 8 * s.env.cin.length)
    ∧ checkLengths (fileLens (lengthFile 19 fun i => if i = 16 ∨ i = 17 then (1 : BitVec 3) else 0)) .cl = .ok ()
    ∧ checkLengths (fileLens (lengthFile 19 fun i => if i = 16 then (1 : BitVec 3) else 0)) .cl
      = .error (.raise .huffIncomplete)
    ∧ (let s := dynState 1 0 0 0 [];
      8 * s.env.cin.length < s.inf.ipos.toNat + 14 ∧ s.env.cinEnd = true)
    ∧ (let s := dynState 2 30 0 0 [];
      s.inf.ipos.toNat + 14 ≤ 8 * s.env.cin.length ∧ 286 < nextBits 5 s + 257)
    ∧ (let s := dynState 2 0 30 0 [];
      s.inf.ipos.toNat + 14 ≤ 8 * s.env.cin.length ∧ 30 < nextBits 5 (advance 5 s) + 1)
    ∧ (let s := dynState 8 29 29 15 [1, 1];
      nextBits 5 s + 257 ≤ 286 ∧ nextBits 5 (advance 5 s) + 1 ≤ 30
        ∧ 8 * s.env.cin.length < s.inf.ipos.toNat + 14 + 3 * (nextBits 4 (advance 10 s) + 4) ∧ s.env.cinEnd = true) := by
  decide +kernel

/-- O14, O15: the four ways to append. -/
theorem witness_AppendsLengths :
    AppendsLengths .cl15 (clState [0] 1 fun _ => 8) 0 1 15 ∧ AppendsLengths .cl16 (clState [0] 1 fun _ => 8) 2 3 8
    ∧ AppendsLengths .cl17 (clState [0] 1 fun _ => 8) 3 3 0 ∧ AppendsLengths .cl18 (clState [0] 1 fun _ => 8) 7 11 0 :=
  ⟨.inl ⟨15, by decide, by decide, rfl, rfl, by decide⟩,
    .inr (.inl ⟨rfl, by decide +kernel, rfl, by decide +kernel, by decide +kernel⟩),
    .inr (.inr (.inl ⟨rfl, rfl, by decide +kernel, rfl⟩)), .inr (.inr (.inr ⟨rfl, rfl, by decide +kernel, rfl⟩))⟩

/-- O14: the last place where each leaves one length to come, the first where each overruns, a short stream. The total is 258. -/
theorem witness_CodeLengthSymbolsAppend :
    (let s := clState [0] 246 fun _ => 8;
      8 * s.env.cin.length < 2 ^ 64 ∧ s.inf.nlen.toNat + s.inf.ndist.toNat = 258
        ∧ s.inf.lidx.toNat + 11 < s.inf.nlen.toNat + s.inf.ndist.toNat ∧ s.inf.ipos.toNat + 7 ≤ 8 * s.env.cin.length)
    ∧ (let s := clState [0] 256 fun _ => 8;
      s.inf.lidx.toNat < 258 ∧ 258 < s.inf.lidx.toNat + 3 ∧ s.inf.ipos.toNat + 3 ≤ 8 * s.env.cin.length)
    ∧ (let s := clState [] 1 fun _ => 8;
      8 * s.env.cin.length < s.inf.ipos.toNat + 2 ∧ 0 < 2 ∧ s.env.cinEnd = true)
    ∧ (clState [] 0 fun _ => 8).inf.lidx = 0 := by decide +kernel

/-- LENS with one code of length 1 for symbol 0 and the given length for end-of-block. -/
def eobLens (v : BitVec 4) (i : Nat) : BitVec 4 := if i = 0 then 1 else if i = 256 then v else 0

/-- O15: the last length is the distance length; no end-of-block code, an incomplete literal/length code, an incomplete
distance code, and two good tables. -/
theorem witness_LastLengthCompletesTheTables :
    let u (v w : BitVec 4) := appendLens 1 w (clState [0] 257 (eobLens v))
    let ll (v w : BitVec 4) : Vector (BitVec 4) 288 := lensSlice (u v w).inf.lens 0 257 288
    let d (v w : BitVec 4) : Vector (BitVec 4) 32 := lensSlice (u v w).inf.lens 257 1 32
    (clState [0] 257 (eobLens 1)).inf.lidx.toNat + 1 = 258
    ∧ (clState [0] 255 (eobLens 1)).inf.lidx.toNat + 3 = 258
    ∧ (u 0 1).inf.lens.toList.getD 256 0 = 0
    ∧ ((u 2 1).inf.lens.toList.getD 256 0 ≠ 0 ∧ checkLengths (fileLens (ll 2 1)) .ll = .error (.raise .huffIncomplete))
    ∧ (checkLengths (fileLens (ll 1 2)) .ll = .ok () ∧ checkLengths (fileLens (d 1 2)) .d = .error (.raise .huffIncomplete))
    ∧ (checkLengths (fileLens (ll 1 1)) .ll = .ok () ∧ checkLengths (fileLens (d 1 1)) .d = .ok ()) := by decide +kernel

/-- A stored block with one byte to go, at the last byte of the stream. -/
def storedState : State :=
  let s := at_ .storedByte [0xA5] 0 true
  s.setInf { s.inf with storedRem := 1, bfinal := true }

/-- A match of one byte at the greatest distance. -/
def matchState : State :=
  let s := at_ .matchByte [] 0 true
  s.setInf { s.inf with matchLen := 1, matchDist := 32768, hist := 32768 }

/-- O16, O25, O29: each row that emits a byte does so somewhere. -/
theorem witness_Emits :
    (∃ u, Emits (.lit 7) 7 (at_ .sym [] 0 false) u)
    ∧ (∃ u, Emits .storedByte 0xA5 storedState u)
    ∧ (∃ b u, Emits .matchByte b matchState u) :=
  ⟨⟨_, .inl ⟨rfl, rfl⟩⟩, ⟨_, .inr (.inl ⟨rfl, by decide, by decide, by decide, rfl⟩)⟩,
    ⟨_, _, .inr (.inr ⟨rfl, by decide, by decide +kernel, by decide +kernel, rfl, rfl⟩)⟩⟩

/-- The state with FLT in the given phase at byte `rx` of the row. -/
def rowAt (ph : Phase) (rx : Nat) (s : State) : State := s.setFlt { s.flt with rphase := ph, rx := rx }

/-- O16, O25, O29: in mid-row up to the last byte but one; a tag is due; the last byte; and the short stream. -/
theorem witness_rows :
    ((rowAt .data 2 storedState).flt.rphase = .data
      ∧ (rowAt .data 2 storedState).flt.rx + 1 ≠ (rowAt .data 2 storedState).flt.pstride)
    ∧ (rowAt .tag 0 storedState).flt.rphase = .tag
    ∧ ((rowAt .data 3 storedState).flt.rphase = .data
      ∧ (rowAt .data 3 storedState).flt.rx + 1 = (rowAt .data 3 storedState).flt.pstride)
    ∧ 8 * storedState.env.cin.length < 2 ^ 64
    ∧ (let s := at_ .storedByte [0xA5] 1 true;
      8 * s.env.cin.length < s.inf.ipos.toNat + 8 ∧ s.env.cinEnd = true) := by decide +kernel

/-- O17: three bytes of a match of distance 2 that end just before the end of the row. -/
theorem witness_OverlappingCopyIsPeriodic :
    let s0 := at_ .matchByte [] 0 true
    let s := s0.setInf { s0.inf with matchLen := 3, matchDist := 2, hist := 2, wpos := 2 }
    s.inf.wpos < s.params.wsize ∧ 2 = s.inf.matchDist.toNat ∧ 1 ≤ 2 ∧ 2 ≤ s.params.wsize
    ∧ 3 ≤ s.inf.matchLen.toNat ∧ s.flt.rphase = .data ∧ s.flt.rx + 3 < s.flt.pstride := by decide +kernel

/-- O19: the first and the last length symbol, five extra bits at the end of the stream, and one bit too few. -/
theorem witness_LengthSymbolSetsMatchLength :
    (decode .llsym 257 = .ok .len257 ∧ lengthTable[257 - 257]? = some (3, 0))
    ∧ (decode .llsym 285 = .ok .len285 ∧ lengthTable[285 - 257]? = some (258, 0))
    ∧ (decode .llsym 284 = .ok .len284 ∧ lengthTable[284 - 257]? = some (227, 5))
    ∧ (let s := at_ .sym [0] 3 true;
      s.inf.ipos.toNat + 5 ≤ 8 * s.env.cin.length ∧ 8 * s.env.cin.length < 2 ^ 64)
    ∧ (let s := at_ .sym [0] 4 true;
      8 * s.env.cin.length < s.inf.ipos.toNat + 5 ∧ 0 < 5 ∧ s.env.cinEnd = true) := by decide +kernel

/-- O20: a distance equal to HIST, one above it, and one bit too few. -/
theorem witness_DistanceSymbolSetsMatchDistance :
    (decode .dsym 29 = .ok .dist29 ∧ distanceTable[29]? = some (24577, 13))
    ∧ (let s := symState [0xFF, 0x1F];
      s.inf.ipos.toNat + 13 ≤ 8 * s.env.cin.length ∧ 24577 + nextBits 13 s = s.inf.hist)
    ∧ (decode .dsym 0 = .ok .dist0 ∧ distanceTable[0]? = some (1, 0)
      ∧ (at_ .sym [] 0 true).inf.hist < 1 + nextBits 0 (at_ .sym [] 0 true))
    ∧ (let s := symState [0xFF];
      8 * s.env.cin.length < s.inf.ipos.toNat + 13 ∧ 0 < 13 ∧ s.env.cinEnd = true) := by decide +kernel

/-- O21: both ends of every range of the tables. -/
theorem witness_LengthAndDistanceTables :
    lengthTable[7]? = some (10, 0) ∧ lengthTable[8]? = some (11, 1) ∧ lengthTable[27]? = some (227, 5)
    ∧ lengthTable[28]? = some (258, 0) ∧ distanceTable[3]? = some (4, 0) ∧ distanceTable[4]? = some (5, 1)
    ∧ distanceTable[29]? = some (24577, 13) ∧ 1 ≤ 32768 := by decide

/-- O22: the step in END. -/
theorem witness_ReservedSymbolsAndEndRaise : (at_ .ended [] 0 true).inf.infState = .ended := rfl

/-- The reading goes on and `p` holds of what it gave. -/
def okAnd {α : Type} (r : Except Stop α) (p : α → Bool) : Bool :=
  match r with
  | .ok a => p a
  | .error _ => false

/-- What `okAnd` says. -/
theorem of_okAnd {α : Type} {r : Except Stop α} {p : α → Bool} (h : okAnd r p = true) : ∃ a, r = .ok a ∧ p a = true := by
  cases r with
  | ok a => exact ⟨a, rfl, h⟩
  | error _ => simp [okAnd] at h

/-- A symbol and its state. -/
theorem of_okSym {r : Except Stop (Nat × State)} {n : Nat} {p : State → Bool}
    (h : okAnd r (fun x => x.1 == n && p x.2) = true) : ∃ t, r = .ok (n, t) ∧ p t = true := by
  obtain ⟨⟨m, t⟩, rfl, h⟩ := of_okAnd h
  have h' : (m == n && p t) = true := h
  simp only [Bool.and_eq_true, beq_iff_eq] at h'
  exact ⟨t, by rw [h'.1], h'.2⟩

/-- O23: the length symbol, the distance symbol, the bits they need and the distance they give. -/
theorem witness_SymStepTakesAWholeMatch :
    (lengthState.inf.infState = .sym ∧ lengthState.drv.dstate = .decoding ∧ 8 * lengthState.env.cin.length < 2 ^ 64
      ∧ lengthTable[257 - 257]? = some (3, 0) ∧ distanceTable[0]? = some (1, 0))
    ∧ ∃ s1, decodeSym (fileLens lengthState.inf.llLen) lengthState = .ok (257, s1)
      ∧ s1.inf.ipos.toNat + 0 ≤ 8 * lengthState.env.cin.length
      ∧ ∃ s2, decodeSym (fileLens lengthState.inf.dLen) (advance 0 s1) = .ok (0, s2)
        ∧ s2.inf.ipos.toNat + 0 ≤ 8 * lengthState.env.cin.length ∧ 1 + nextBits 0 s2 ≤ lengthState.inf.hist := by
  obtain ⟨s1, h1, h⟩ := of_okSym (r := decodeSym (fileLens lengthState.inf.llLen) lengthState) (n := 257)
    (p := fun s1 => decide (s1.inf.ipos.toNat + 0 ≤ 8 * lengthState.env.cin.length)
      && okAnd (decodeSym (fileLens lengthState.inf.dLen) (advance 0 s1)) (fun y => y.1 == 0
        && decide (y.2.inf.ipos.toNat + 0 ≤ 8 * lengthState.env.cin.length ∧ 1 + nextBits 0 y.2 ≤ lengthState.inf.hist)))
    (by decide +kernel)
  rw [Bool.and_eq_true, decide_eq_true_eq] at h
  obtain ⟨s2, h2, h3⟩ := of_okSym (n := 0)
    (p := fun s2 => decide (s2.inf.ipos.toNat + 0 ≤ 8 * lengthState.env.cin.length
      ∧ 1 + nextBits 0 s2 ≤ lengthState.inf.hist)) h.2
  rw [decide_eq_true_eq] at h3
  exact ⟨by decide +kernel, s1, h1, h.1, s2, h2, h3⟩

/-- A state in SYM with the fixed tables at bit `pos`, with the given history. -/
def symAt (cin : List Byte) (pos hist : Nat) (fin : Bool) : State :=
  let s := at_ .sym cin pos fin
  s.setInf { s.inf with llLen := fixedLlLen, dLen := fixedDLen, hist := hist }

/-- The literal/length code gives this symbol, and then `p` holds. -/
def firstSym (s : State) (sym : Nat) (p : State → Bool) : Bool :=
  okAnd (decodeSym (fileLens s.inf.llLen) s) fun x => x.1 == sym && p x.2

/-- After `n` extra bits the distance code gives this symbol, and then `p` holds. -/
def thenDist (n t : Nat) (p : State → Bool) (s1 : State) : Bool :=
  okAnd (decodeSym (fileLens s1.inf.dLen) (advance n s1)) fun x => x.1 == t && p x.2

/-- Why reading stopped. -/
def stopOf {α : Type} (r : Except Stop α) : Option Stop :=
  match r with
  | .ok _ => none
  | .error e => some e

/-- O23: no code left; a literal, the end of the block, a reserved symbol; a length symbol whose extra bit is missing. -/
theorem witness_SymStep_first :
    stopOf (decodeSym (fileLens (symAt [] 0 0 true).inf.llLen) (symAt [] 0 0 true)) = some (.raise .truncated)
    ∧ firstSym (symAt [0x8E] 0 0 true) 0x41 (fun _ => true) = true
    ∧ firstSym (symAt [0x00] 0 0 true) 256 (fun _ => true) = true
    ∧ firstSym (symAt [0x63] 0 0 true) 286 (fun _ => true) = true
    ∧ lengthTable[265 - 257]? = some (11, 1)
    ∧ firstSym (symAt [0x90] 1 0 true) 265 (fun s1 => decide (8 * s1.env.cin.length < s1.inf.ipos.toNat + 1)) = true := by
  decide +kernel

/-- O23: after length symbol 257, no distance code; the reserved distance 30; distance 4 with its extra bit missing; a distance
of 1 without history. -/
theorem witness_SymStep_distance :
    firstSym (symAt [0x80] 1 0 true) 257 (fun s1 =>
      decide (stopOf (decodeSym (fileLens s1.inf.dLen) (advance 0 s1)) = some (.raise .truncated))) = true
    ∧ firstSym (symAt [0xC0, 0x07] 0 0 true) 257 (thenDist 0 30 fun _ => true) = true
    ∧ distanceTable[4]? = some (5, 1)
    ∧ firstSym (symAt [0, 0x24] 4 0 true) 257 (thenDist 0 4 fun s2 =>
      decide (8 * s2.env.cin.length < s2.inf.ipos.toNat + 1)) = true
    ∧ firstSym (symAt [0b01000000, 0] 0 0 true) 257 (thenDist 0 0 fun s2 =>
      decide (s2.inf.hist < 1 + nextBits 0 s2)) = true := by
  decide +kernel

/-- O24. -/
theorem witness_FilterTagStartsARow : (4 : Byte).toNat ≤ 4 ∧ 4 < (5 : Byte).toNat := by decide

/-- O27: the predictor of a corner where `a` is nearest, and of one where it is not and `b` is no farther than `c`. -/
theorem witness_PredictorsAreExact :
    (∀ v : Byte, v = 2 ∨ v = 3 → ((((1 : Byte).toNat : Int) + (2 : Byte).toNat - (3 : Byte).toNat) - (1 : Byte).toNat).natAbs
      ≤ ((((1 : Byte).toNat : Int) + (2 : Byte).toNat - (3 : Byte).toNat) - v.toNat).natAbs)
    ∧ pred 4 0 10 0 ≠ 0 := by
  refine ⟨?_, by decide⟩
  rintro v (rfl | rfl) <;> decide

/-- O28: a raw row and its filtered row (Sub, one byte per pixel). -/
theorem witness_UnfilterInvertsFilter :
    1 ≤ 1 ∧ ∀ x, x < 3 → (rowOf [250, 10, 1]).read x
      = (rowOf [250, 4, 5]).read x - predAt 1 1 [] (rowOf [250, 4, 5]) x := by decide +kernel

/-- O30: the last pixel of a 4 × 2 image. -/
theorem witness_PassesPartitionTheImage :
    3 < (at_ .sym [] 0 true).drv.width.toNat ∧ 1 < (at_ .sym [] 0 true).drv.height.toNat := by decide

/-- O34: two rows of three one-bit pixels that differ in their padding. -/
theorem witness_PaddingBitsAreIgnored :
    let s := rowState 0 1 3 [0b10100000] Pix.reset
    s.drv.converted = true
    ∧ ∀ k, k < s.drv.bpx * s.flt.pw.toNat → rowBit (rowOf [0b10111111]) k = rowBit s.curRow k := by decide +kernel

/-- O35: a 16-bit format, an unlisted depth and an unlisted colour type. -/
theorem witness_UnconvertedFormatsAreRefused :
    ([(0, 16), (3, 16), (1, 8), (255, 255)] : List (Byte × Byte)).all (fun p => decide
      (¬ ((p.1 = 0 ∧ (p.2 = 1 ∨ p.2 = 2 ∨ p.2 = 4 ∨ p.2 = 8)) ∨ (p.1 = 2 ∧ p.2 = 8)
        ∨ (p.1 = 3 ∧ (p.2 = 1 ∨ p.2 = 2 ∨ p.2 = 4 ∨ p.2 = 8)) ∨ (p.1 = 4 ∧ p.2 = 8) ∨ (p.1 = 6 ∧ p.2 = 8)))) = true := by
  decide +kernel

/-- `s` with one action queued that comes at once. -/
def queued (a : EnvAct) (s : State) : State := s.setInputs [(0, a)]

/-- O36: before the first reset a read, and a reset. -/
theorem witness_ResetClearsEverything :
    let s := base.setEnv { base.env with beenReset := false }
    (queued (.cfgRead 4) s).env.beenReset = false ∧ (EnvAct.cfgRead 4).isReset = false ∧ EnvAct.hwReset.isReset = true
    ∧ (EnvAct.cfgWrite 0 9).isReset = true := by decide

/-- O37: a header that fits, one that does not, and a COMMIT_HEADER too late. -/
theorem witness_CommitHeaderChecksTheHeader :
    ((withHeader 1).drv.dstate = .uninit ∧ (withHeader 1).drv.converted = true ∧ headerFits (withHeader 1) = true)
    ∧ ((withHeader 2).drv.dstate = .uninit ∧ headerFits (withHeader 2) = false)
    ∧ (headerReady 0).drv.dstate ≠ .uninit := by decide +kernel

/-- O38. -/
theorem witness_StartBeginsDecoding :
    (withHeader 0).drv.dstate ≠ .headerReady
    ∧ ((headerReady 1).drv.dstate = .headerReady ∧ 1 ≤ (headerReady 1).drv.width.toNat
      ∧ 1 ≤ (headerReady 1).drv.height.toNat) := by decide

/-- O39, O40, O41: an answer to no row; a pending row; the next row; the end of a plain image. -/
theorem witness_answers :
    base.drv.rowPending = false ∧ (pending 0 0).drv.rowPending = true
    ∧ (pending 0 0).flt.prow + 1 ≠ (pending 0 0).flt.ph
    ∧ ((pending 1 0).flt.prow + 1 = (pending 1 0).flt.ph ∧ (pending 1 0).drv.interlace ≠ 1) := by decide +kernel

/-- O41: after the last row of pass 7 there is no pass; after that of pass 1 of a 4 × 2 image, pass 4 is next. -/
theorem witness_next_passes :
    (let s := (pending 0 1).setFlt { (pending 0 1).flt with pass := 7 };
      s.flt.prow + 1 = s.flt.ph ∧ s.drv.interlace = 1 ∧ NoNextPass s.drv (s.flt.pass.toNat + 1))
    ∧ ((pending 0 1).flt.prow + 1 = (pending 0 1).flt.ph ∧ (pending 0 1).drv.interlace = 1
      ∧ IsNextPass (pending 0 1).drv ((pending 0 1).flt.pass.toNat + 1) 4) := by
  refine ⟨⟨by decide, by decide, ?_⟩, by decide, by decide, by decide, by decide, ⟨by decide, by decide⟩, ?_⟩
  · intro r h1 h2
    have h : 8 ≤ r := h1
    omega
  · rintro r h1 h2 ⟨hw, hh⟩
    have h : 2 ≤ r := h1
    obtain rfl | rfl : r = 2 ∨ r = 3 := by omega
    · exact absurd hw (by decide)
    · exact absurd hh (by decide)

/-- O39, O42, O43, O44: offsets at both ends of every range, in states that close and open the windows. -/
theorem witness_cfg_windows :
    ((0x7FC : BitVec 11).toNat % 4 = 0 ∧ (0x7FC : BitVec 11) ≠ 0 ∧ (0x000 : BitVec 11).toNat % 4 = 0)
    ∧ ((headerReady 0).drv.dstate ≠ .uninit ∧ 0x014 ≤ (0x014 : BitVec 11).toNat ∧ (0x024 : BitVec 11).toNat ≤ 0x024)
    ∧ ((at_ .sym [] 0 true).drv.dstate ≠ .uninit ∧ (at_ .sym [] 0 true).drv.dstate ≠ .headerReady)
    ∧ ((0x00C : BitVec 11).toNat < 0x010 ∧ 0x040 < (0x044 : BitVec 11).toNat ∧ (0x3FC : BitVec 11).toNat < 0x400)
    ∧ (base.drv.dstate = .uninit ∧ 0x010 ≤ (0x010 : BitVec 11).toNat ∧ (0x024 : BitVec 11).toNat ≤ 0x024)
    ∧ ((headerReady 0).drv.dstate = .headerReady ∧ 0x028 ≤ (0x028 : BitVec 11).toNat
      ∧ (0x040 : BitVec 11).toNat ≤ 0x040 ∧ 0x400 ≤ (0x400 : BitVec 11).toNat)
    ∧ ((0x00000007 : BitVec 32).toNat % 8 = 7 ∧ (0xFFFFFFF8 : BitVec 32).toNat % 8 = 0) := by decide

/-- A decoding core meets CoreMoves. -/
theorem witness_CoreMoves : CoreMoves storedState ∧ CoreMoves (lengthState) :=
  ⟨⟨rfl, rfl, rfl, rfl⟩, ⟨rfl, rfl, rfl, rfl⟩⟩

/-- O45: a stored byte that runs, one that waits, and a whole match. -/
theorem witness_StepRunsTheDecodedRow :
    (fetchWord storedState = .ok (.stored, 3, storedState) ∧ decode .stored 3 = .ok .storedByte
      ∧ Instr.storedByte.isLength = false ∧ Result.isNext (exec .storedByte storedState) = true
      ∧ held (exec .storedByte (at_ .storedByte [] 0 false)) = some .awaitSource)
    ∧ ∃ s1, fetchWord (lengthState) = .ok (.llsym, 257, s1)
      ∧ decode .llsym 257 = .ok .len257 ∧ Instr.len257.isLength = true
      ∧ see (exec .len257 s1) (fun t => (t.drv.dstate, okAnd (decodeSym (fileLens t.inf.dLen) t) fun x =>
          x.1 == 0 && Result.isNext (exec .dist0 x.2))) = some (.decoding, true)
      ∧ decode .dsym 0 = .ok .dist0 := by
  have h : okAnd (fetchWord lengthState) (fun x => x.1 == Format.llsym && (x.2.1 == 257 &&
      decide (see (exec .len257 x.2.2) (fun t => (t.drv.dstate, okAnd (decodeSym (fileLens t.inf.dLen) t) fun x =>
          x.1 == 0 && Result.isNext (exec .dist0 x.2))) = some (.decoding, true)))) = true := by decide +kernel
  obtain ⟨⟨f, w, s1⟩, h1, h⟩ := of_okAnd h
  simp only [Bool.and_eq_true, decide_eq_true_eq, beq_iff_eq] at h
  obtain ⟨rfl, rfl, h⟩ := h
  exact ⟨⟨rfl, by decide, rfl, by decide +kernel, by decide +kernel⟩, s1, h1, by decide, rfl, h, by decide⟩

/-- O46. -/
theorem witness_StepRunsCommandsAndAnswers :
    let s := queued (.cfgWrite 0 3) base
    s.env.beenReset = true ∧ s.env.inputs = (0, .cfgWrite 0 3) :: [] := by decide

/-- O47: the holds for the host, for RESET and for the sink, and a decoding core that has neither a row pending nor an action
queued, before and after the end of the stream. -/
theorem witness_CoreWaitsWhenNotEnabled :
    (base.env.beenReset = true ∧ base.env.inputs = [] ∧ base.drv.dstate = .uninit)
    ∧ (let s := base.setDrv { base.drv with dstate := .done };
      s.env.inputs = [] ∧ s.drv.dstate = .done)
    ∧ ((pending 0 0).drv.dstate = .decoding ∧ (pending 0 0).drv.rowPending = true ∧ (pending 0 0).env.inputs = [])
    ∧ (∀ fin : Bool, let s := at_ .zhdr [0x78] 0 fin;
      s.env.beenReset = true ∧ s.env.inputs = [] ∧ s.drv.dstate = .decoding ∧ s.drv.rowPending = false
      ∧ 8 * s.env.cin.length < 2 ^ 64 ∧ s.inf.ipos.toNat ≤ 8 * s.env.cin.length ∧ s.env.cinEnd = fin) := by
  decide +kernel

/-- O47: the fields of the headers and of a stored block are one bit short. -/
theorem witness_NeedsBits_fields (fin : Bool) :
    NeedsBits (at_ .zhdr [0, 0] 1 fin) ∧ NeedsBits (at_ .blkhdr [0] 6 fin)
    ∧ NeedsBits (at_ .storedHdr [0, 5, 0, 0xFA] 3 fin) ∧ NeedsBits (at_ .storedByte [0] 1 fin)
    ∧ NeedsBits (at_ .dynHdr [0, 0] 3 fin) ∧ NeedsBits (at_ .dynHdr [0, 0, 0] 0 fin) := by
  cases fin <;>
    exact ⟨⟨by decide, by decide⟩, ⟨by decide, by decide⟩, ⟨by decide, by decide⟩, ⟨by decide, by decide⟩,
      .inl ⟨by decide, by decide⟩, .inr ⟨by decide, by decide, by decide, by decide⟩⟩

/-- O47: fourteen ones begin the code of no symbol of this code, whose last two codes have fifteen bits; and no bit at all. -/
theorem witness_CodeShort (fin : Bool) :
    CodeShort deepLens (at_ .sym [0xFF, 0xFF] 2 fin) ∧ CodeShort fixedLitLens (at_ .sym [] 0 fin) := by
  cases fin <;> (
    refine ⟨⟨by decide, fun sym k h hk hin => ?_⟩, by decide, fun sym k _ hk hin => ?_⟩
    · have hs : sym < 16 := (List.getElem?_eq_some_iff.mp h).1
      have hk' : 2 + k ≤ 16 := hin
      refine ⟨k - 1, by omega, ?_⟩
      clear hin
      interval_cases sym <;> cases h <;> first
        | exact absurd hk' (by decide)
        | decide
    · have h : 0 + k ≤ 0 := hin
      omega)

/-- O47: the extra field of a code-length repeat is missing: symbols 16, 17 and 18 in codes of five bits. -/
theorem witness_ClShort :
    (let s := (clState [0x08] 1 fun _ => 8).setInf { (clState [0x08] 1 fun _ => 8).inf with ipos := 3 };
      okAnd (decodeSym (fileLens s.inf.clLen) s) (fun x => x.1 == 16
        && decide (s.inf.lidx ≠ 0 ∧ 0 < 2 ∧ 8 * x.2.env.cin.length < x.2.inf.ipos.toNat + 2)) = true)
    ∧ (let s := (clState [0x44] 1 fun _ => 8).setInf { (clState [0x44] 1 fun _ => 8).inf with ipos := 2 };
      okAnd (decodeSym (fileLens s.inf.clLen) s) (fun x => x.1 == 17
        && decide (0 < 3 ∧ 8 * x.2.env.cin.length < x.2.inf.ipos.toNat + 3)) = true)
    ∧ (let s := clState [0x09] 1 fun _ => 8;
      okAnd (decodeSym (fileLens s.inf.clLen) s) (fun x => x.1 == 18
        && decide (0 < 7 ∧ 8 * x.2.env.cin.length < x.2.inf.ipos.toNat + 7)) = true) := by
  decide +kernel

/-- O49: both kinds of trap. -/
theorem witness_TrapWritesOnlyWhatR326Says :
    cause (exec .ll286 (symState [])) = some (.error, .lengthSymbol) ∧ (symState []).drv.dstate ≠ .error
    ∧ cause (exec .pixG16 base) = some (.error, .header) ∧ base.drv.dstate ≠ .error := by decide +kernel

/-- O50: a stream row that goes on, one that presents a row, and one that raises. -/
theorem witness_StreamCannotWriteConfiguration :
    (Instr.lit 7).fromStream = true ∧ (symState []).drv.converted = true ∧ Result.isNext (exec (.lit 7) (symState [])) = true
    ∧ (let s := symState [];
      see (exec (.lit 7) (rowAt .data 3 s)) (fun t => (t.drv.rowPending, t.drv.rowcnt)) = some (true, s.drv.rowcnt + 1))
    ∧ Instr.endStep.fromStream = true ∧ cause (exec .endStep (symState [])) = some (.error, .dataEndedEarly) := by
  decide +kernel

/-- `StatusInv` from its seven parts as one decidable conjunction. -/
theorem statusInv_of {s : State}
    (h : s.drv.rowPending = s.rout.isSome ∧ (s.drv.rowPending = true → s.drv.dstate = .decoding)
      ∧ (s.drv.stopped = true → s.drv.dstate = .done) ∧ (s.drv.dstate = .error ↔ s.drv.errcode ≠ .success)
      ∧ (s.drv.dstate = .error ↔ s.drv.errcause ≠ .noError)
      ∧ (s.drv.errcause = .header ↔ s.drv.errcode = .unsupportedFeature)
      ∧ (s.drv.errcode = .success ∨ s.drv.errcode = .decodeError ∨ s.drv.errcode = .unsupportedFeature)) :
    StatusInv s := ⟨h.1, h.2.1, h.2.2.1, h.2.2.2.1, h.2.2.2.2.1, h.2.2.2.2.2.1, h.2.2.2.2.2.2⟩

/-- A core in ERROR. -/
def errorState : State := base.setDrv { base.drv with dstate := .error, errcode := .decodeError, errcause := .truncated }

/-- O51, O52: the status invariant in every DSTATE. -/
theorem witness_StatusInv :
    StatusInv (withHeader 1) ∧ StatusInv (headerReady 1) ∧ StatusInv (symState []) ∧ StatusInv (pending 1 0)
    ∧ StatusInv errorState :=
  ⟨statusInv_of (by decide), statusInv_of (by decide), statusInv_of (by decide), statusInv_of (by decide),
    statusInv_of (by decide)⟩

/-- O51: each of the listed events happens. -/
theorem witness_OnlyListedEventsChangeDstate :
    see (step (queued .hwReset (pending 1 0))) (fun t => t.drv.dstate) = some .uninit
    ∧ see (step (queued (.cfgWrite 0 2) (withHeader 1))) (fun t => t.drv.dstate) = some .headerReady
    ∧ cause (step (queued (.cfgWrite 0 2) (withHeader 2))) = some (.error, .header)
    ∧ see (step (queued (.cfgWrite 0 3) (headerReady 1))) (fun t => t.drv.dstate) = some .decoding
    ∧ cause (step (at_ .ended [] 0 true)) = some (.error, .dataEndedEarly)
    ∧ see (step (queued (.answer 1) (pending 0 0))) (fun t => t.drv.dstate) = some .done
    ∧ see (step (queued (.answer 0) (pending 1 0))) (fun t => t.drv.dstate) = some .done
    ∧ (pending 1 0).drv.converted = true := by decide +kernel

/-- O52, O53, O54: an action that is no reset, in ERROR, while a row is pending, and during the decode. -/
theorem witness_held_cores :
    (errorState.drv.dstate = .error ∧ (EnvAct.cfgWrite 0 3).isReset = false
      ∧ Result.isNext (step (queued (.cfgWrite 0 3) errorState)) = true)
    ∧ ((pending 0 0).drv.dstate = .decoding ∧ (pending 0 0).drv.rowPending = true
      ∧ Result.isNext (step (queued (.cinByte 5) (pending 0 0))) = true)
    ∧ ((symState []).drv.dstate = .decoding ∧ Result.isNext (envAct (.cfgWrite 0 3) (symState [])) = true
      ∧ Result.isNext (envAct (.cfgRead 4) (symState [])) = true) := by decide +kernel

/-- The input window of the sample states is sound. -/
theorem witness_InputInv : InputInv (lengthState) ∧ InputInv matchState :=
  ⟨⟨by decide +kernel, by decide, by decide, by decide, by decide⟩,
    ⟨by decide +kernel, by decide, by decide, by decide, by decide⟩⟩

/-- O55: a step that consumes bits, and one that copies a byte. -/
theorem witness_EveryStepMakesProgress :
    see (coreStep lengthState) (fun t => t.drv.dstate) = some .decoding
    ∧ see (coreStep matchState) (fun t => (t.drv.dstate, t.inf.ipos)) = some (.decoding, 0) := by decide +kernel

/-- O56: the header of a fixed block, and the last length of a dynamic header. -/
theorem witness_CodeTablesChangeAtTwoPoints :
    let s := clState [0xF0] 257 (eobLens 1)
    see (coreStep (at_ .blkhdr [0b011] 0 true)) (fun t => (t.drv.dstate, decide (t.inf.llLen = (at_ .blkhdr [] 0 true).inf.llLen)))
      = some (.decoding, false)
    ∧ see (coreStep (s.setInf { s.inf with clLen := lengthFile 19 fun i => if i = 1 then 1 else 0 }))
      (fun t => (t.drv.dstate, t.inf.infState, decide (t.inf.llLen = s.inf.llLen))) = some (.decoding, .sym, false) := by
  decide +kernel

/-- O57 to O59: a state in the middle of a decode has the invariant, and its step a next state. -/
theorem witness_Inv : Inv matchState ∧ ∃ t, step matchState = .next t where
  left :=
    { memory := by decide
      bounds := by decide
      input := witness_InputInv.2
      status := statusInv_of (by decide)
      window := ⟨by decide +kernel, by decide +kernel, by decide +kernel⟩
      element := ⟨by decide, by decide, by decide⟩
      row := ⟨by decide +kernel, by decide, by decide, by decide, by decide, by decide, by decide, by decide⟩
      palette := (by decide : matchState.pix.palCount.toNat ≤ 256) }
  right := exists_next (by decide +kernel)

end Sys2Proof.Tests
end

section
/-! SUPPORT. Decoding, one format at a time (R89): what a word decodes to is well formed and has that word. -/

namespace Sys2Proof

/-- `i` is well formed and its word of format `f` is `w`. -/
def HasWord (f : Format) (w : Nat) (i : Instr) : Prop := i.wf = true ∧ encode i = (f, w)

theorem hasWord_of_mem_zipIdx {f : Format} {rows : List Instr} {start w : Nat} {i : Instr}
    (hrows : ∀ p ∈ rows.zipIdx start, p.1.wf = true ∧ encode p.1 = (f, p.2)) (hs : start ≤ w)
    (h : rows[w - start]? = some i) : HasWord f w i :=
  hrows (i, w) (List.mk_mem_zipIdx_iff_le_and_getElem?_sub.2 ⟨hs, h⟩)

theorem clSymInstrs_words : ∀ p ∈ clSymInstrs.zipIdx, p.1.wf = true ∧ encode p.1 = (.clsym, p.2) := by decide

theorem llSymInstrs_words : ∀ p ∈ llSymInstrs.zipIdx 256, p.1.wf = true ∧ encode p.1 = (.llsym, p.2) := by decide

theorem dSymInstrs_words : ∀ p ∈ dSymInstrs.zipIdx, p.1.wf = true ∧ encode p.1 = (.dsym, p.2) := by decide

theorem decodeZhdr_hasWord {w : Nat} (hw : w < 65536) : HasWord .zhdr w (decodeZhdr w) := by
  refine ⟨rfl, ?_⟩
  simp only [decodeZhdr, encode, BitVec.toNat_ofNat, Prod.mk.injEq, true_and]
  omega

theorem decodeBlkhdr_hasWord : ∀ w < 8, (decodeBlkhdr w).wf = true ∧ encode (decodeBlkhdr w) = (.blkhdr, w) := by
  decide

theorem decodeCmd_hasWord : ∀ w < 8, (decodeCmd w).wf = true ∧ encode (decodeCmd w) = (.cmd, w) := by decide

theorem decodeRowans_hasWord : ∀ w < 2, (decodeRowans w).wf = true ∧ encode (decodeRowans w) = (.rowans, w) := by
  decide

theorem decodeFtag_hasWord (b : Byte) : HasWord .ftag b.toNat (decodeFtag b) := by
  have hb := b.isLt
  unfold decodeFtag
  dsimp only
  generalize b.toNat = t at hb ⊢
  iterate 11
    refine iteInduction (fun _ => ?_) (fun _ => ?_)
    · refine ⟨rfl, ?_⟩
      simp only [encode, BitVec.toNat_ofNat, Prod.mk.injEq, true_and]
      omega
  refine ⟨rfl, ?_⟩
  simp only [encode, BitVec.toNat_ofNat, Prod.mk.injEq, true_and]
  omega

theorem decodePixfmt_hasWord (ct bd : Byte) : HasWord .pixfmt (ct.toNat * 256 + bd.toNat) (decodePixfmt ct bd) := by
  unfold decodePixfmt
  split
  case h_16 =>
    refine ⟨?_, rfl⟩
    simp only [Instr.wf, namedPixelPairs, Bool.not_eq_true']
    simp_all
  all_goals
    rename_i hct hbd
    rw [hct, hbd]
    exact ⟨rfl, rfl⟩

/-- R89: what a word decodes to is well formed, and has that word. -/
theorem decode_hasWord {f : Format} {w : Nat} {i : Instr} (h : decode f w = .ok i) : HasWord f w i := by
  unfold decode at h
  split at h
  · cases h
  rename_i hw
  rw [not_le] at hw
  cases f <;> simp only [Format.width, Nat.reducePow] at hw h
  case zhdr => cases h; exact decodeZhdr_hasWord hw
  case blkhdr => cases h; exact decodeBlkhdr_hasWord w hw
  case cmd => cases h; exact decodeCmd_hasWord w hw
  case rowans => cases h; exact decodeRowans_hasWord w hw
  case stored =>
    split_ifs at h with h2 h3
    · subst h2; cases h; exact ⟨rfl, rfl⟩
    · subst h3; cases h; exact ⟨rfl, rfl⟩
  case dynhdr =>
    split_ifs at h with h4
    subst h4; cases h; exact ⟨rfl, rfl⟩
  case micro =>
    split_ifs at h with h7 h8
    · subst h7; cases h; exact ⟨rfl, rfl⟩
    · subst h8; cases h; exact ⟨rfl, rfl⟩
  case clsym =>
    split at h
    · rename_i hrow
      cases h; exact hasWord_of_mem_zipIdx clSymInstrs_words (Nat.zero_le w) hrow
    · cases h
  case dsym =>
    split at h
    · rename_i hrow
      cases h; exact hasWord_of_mem_zipIdx dSymInstrs_words (Nat.zero_le w) hrow
    · cases h
  case llsym =>
    split_ifs at h with hlit
    · cases h
      refine ⟨rfl, ?_⟩
      rw [encode, BitVec.toNat_ofNat, Nat.mod_eq_of_lt hlit]
    · split at h
      · rename_i hrow
        cases h; exact hasWord_of_mem_zipIdx llSymInstrs_words (not_lt.1 hlit) hrow
      · cases h
  case ftag =>
    cases h
    have hb := decodeFtag_hasWord (BitVec.ofNat 8 w)
    rwa [BitVec.toNat_ofNat, Nat.mod_eq_of_lt hw] at hb
  case pixfmt =>
    cases h
    have hp := decodePixfmt_hasWord (BitVec.ofNat 8 (w / 256)) (BitVec.ofNat 8 w)
    rwa [BitVec.toNat_ofNat, BitVec.toNat_ofNat,
      show w / 256 % 2 ^ 8 * 256 + w % 2 ^ 8 = w by omega] at hp

/-- The words that have a row (R13, R76, R77, R89). -/
def RowExists (f : Format) (w : Nat) : Prop :=
  w < 2 ^ f.width ∧ (f = .clsym → w ≤ 18) ∧ (f = .llsym → w ≤ 287) ∧ (f = .stored → w = 2 ∨ w = 3)
    ∧ (f = .dynhdr → w = 4) ∧ (f = .micro → w = 7 ∨ w = 8)

theorem exists_decode_iff (f : Format) (w : Nat) : (∃ i, decode f w = .ok i) ↔ RowExists f w := by
  unfold decode RowExists
  by_cases hw : 2 ^ f.width ≤ w
  · simp [hw]
  rw [if_neg hw, iff_comm, and_iff_right (not_le.1 hw)]
  cases f <;> simp only [reduceCtorEq, false_imp_iff, true_imp_iff, and_true, true_and, Except.ok.injEq, exists_eq',
    Format.width, Nat.reducePow, not_le] at hw ⊢
  case clsym =>
    cases hrow : clSymInstrs[w]? with
    | none =>
      have hlen : 19 ≤ w := List.getElem?_eq_none_iff.1 hrow
      exact iff_of_false (by omega) (by simp)
    | some i =>
      have hlen : w < 19 := (List.getElem?_eq_some_iff.1 hrow).1
      exact iff_of_true (by omega) ⟨i, rfl⟩
  case dsym =>
    cases hrow : dSymInstrs[w]? with
    | none => exact absurd (List.getElem?_eq_none_iff.1 hrow : 32 ≤ w) (not_le.2 hw)
    | some i => exact iff_of_true trivial ⟨i, rfl⟩
  case stored => split_ifs <;> simp [*]
  case dynhdr => split_ifs <;> simp [*]
  case micro => split_ifs <;> simp [*]
  case llsym =>
    split_ifs with hlit
    · exact iff_of_true (by omega) ⟨_, rfl⟩
    · cases hrow : llSymInstrs[w - 256]? with
      | none =>
        have hlen : 32 ≤ w - 256 := List.getElem?_eq_none_iff.1 hrow
        exact iff_of_false (by omega) (by simp)
      | some i =>
        have hlen : w - 256 < 32 := (List.getElem?_eq_some_iff.1 hrow).1
        exact iff_of_true (by omega) ⟨i, rfl⟩

end Sys2Proof

open Sys2Proof

/-- Settles O2, one format at a time: a word's row carries the word, and the alphabets' row lists have the stated lengths. -/
theorem encodeOfDecode : Obligations.EncodeOfDecode :=
  ⟨fun _ _ _ h => decode_hasWord h, exists_decode_iff⟩
end

section
/-! SUPPORT. How reading the compressed stream ends (R42, R58, R131, R133): the causes it raises with, and the bits it takes. -/

namespace Sys2Proof.Machine

/-! ### Causes -/

/-- A cause that the compressed stream can raise with: an error, and not the header's (R321, R326). -/
def Cause.ofStream (c : Cause) : Bool := c != .noError && c != .header

theorem Cause.ofStream_iff (c : Cause) : c.ofStream = true ↔ c ≠ .noError ∧ c ≠ .header := by
  simp [Cause.ofStream]

/-- If the reading raises, it raises with one of the stream's causes. -/
def RaisesOfStream {α : Type} (r : Except Stop α) : Prop := ∀ c, r = .error (.raise c) → c.ofStream = true

section
variable {α β : Type}

theorem raisesOfStream_ok (a : α) : RaisesOfStream (.ok a : Except Stop α) := by
  intro c h; cases h

theorem raisesOfStream_starve : RaisesOfStream (.error .starve : Except Stop α) := by
  intro c h; cases h

theorem raisesOfStream_raise {c : Cause} (hc : c.ofStream = true) :
    RaisesOfStream (.error (.raise c) : Except Stop α) := by
  intro c' h; cases h; exact hc

theorem RaisesOfStream.bind {x : Except Stop α} {f : α → Except Stop β} (hx : RaisesOfStream x)
    (hf : ∀ a, RaisesOfStream (f a)) : RaisesOfStream (x >>= f) := by
  cases x with
  | ok a => exact hf a
  | error e => intro c h; cases h; exact hx c rfl

theorem RaisesOfStream.map {x : Except Stop α} {f : α → β} (hx : RaisesOfStream x) : RaisesOfStream (x.map f) := by
  cases x with
  | ok a => exact raisesOfStream_ok _
  | error e => intro c h; cases h; exact hx c rfl

/-- A sequence of readings answers only if its first reading does. -/
theorem bind_eq_ok {x : Except Stop α} {f : α → Except Stop β} {b : β} (h : x >>= f = .ok b) :
    ∃ a, x = .ok a ∧ f a = .ok b := by
  cases x with
  | ok a => exact ⟨a, rfl, h⟩
  | error e => cases h

end

theorem readBits_raises (n : Nat) (s : State) : RaisesOfStream (readBits n s) := by
  rcases readBits_cases n s with ⟨_, h⟩ | ⟨_, _, _, h⟩ | ⟨_, _, _, h⟩ <;> rw [h]
  · exact raisesOfStream_ok _
  · exact raisesOfStream_raise rfl
  · exact raisesOfStream_starve

theorem decodeSymFrom_raises (lens : List Nat) (fuel l c first : Nat) (s : State) :
    RaisesOfStream (decodeSymFrom lens fuel l c first s) := by
  induction fuel generalizing l c first s with
  | zero => exact raisesOfStream_raise rfl
  | succ fuel ih =>
    unfold decodeSymFrom
    have hread := readBits_raises 1 s
    split
    · rename_i e he
      intro c h
      cases h
      exact hread c he
    · dsimp only
      split
      · exact raisesOfStream_ok _
      · exact ih _ _ _ _

theorem decodeSym_raises (lens : List Nat) (s : State) : RaisesOfStream (decodeSym lens s) :=
  decodeSymFrom_raises lens 15 1 0 0 s

theorem checkLengths_raises (lens : List Nat) (kind : CodeKind) : RaisesOfStream (checkLengths lens kind) := by
  unfold checkLengths
  split
  · exact raisesOfStream_ok _
  · split
    · exact raisesOfStream_raise rfl
    · split
      · exact raisesOfStream_raise rfl
      · exact raisesOfStream_ok _

theorem readClls_raises (order : List Nat) (file : Vector (BitVec 3) 19) (s : State) :
    RaisesOfStream (readClls order file s) := by
  induction order generalizing file s with
  | nil => exact raisesOfStream_ok _
  | cons sym rest ih =>
    unfold readClls
    have hread := readBits_raises 3 s
    split
    · rename_i e he
      intro c h
      cases h
      exact hread c he
    · exact ih _ _

theorem readStoredHdr_raises (s : State) : RaisesOfStream (readStoredHdr s) := by
  refine (readBits_raises _ _).bind fun r1 => (readBits_raises _ _).bind fun r2 => ?_
  dsimp only
  split
  · exact raisesOfStream_raise rfl
  · exact raisesOfStream_ok _

theorem readDynHdr_raises (s : State) : RaisesOfStream (readDynHdr s) := by
  refine (readBits_raises _ _).bind fun r1 => (readBits_raises _ _).bind fun r2 => (readBits_raises _ _).bind fun r3 => ?_
  dsimp only
  split
  · exact raisesOfStream_raise rfl
  · exact (readClls_raises _ _ _).bind fun r4 => (checkLengths_raises _ _).bind fun _ => raisesOfStream_ok _

theorem fetchWord_raises (s : State) : RaisesOfStream (fetchWord s) := by
  unfold fetchWord
  split
  · exact (readBits_raises _ _).map
  · exact (readBits_raises _ _).map
  · exact raisesOfStream_ok _
  · exact raisesOfStream_ok _
  · exact raisesOfStream_ok _
  · exact (decodeSym_raises _ _).map
  · exact (decodeSym_raises _ _).map
  · exact raisesOfStream_ok _
  · exact raisesOfStream_ok _

/-! ### Bits taken -/

/-- IPOS is inside the delivered stream, whose bits a 64-bit IPOS can count (R12). -/
def InsideStream (s : State) : Prop :=
  8 * s.env.cin.length < 2 ^ 64 ∧ s.inf.ipos.toNat ≤ 8 * s.env.cin.length

theorem InputInv.inside {s : State} (h : InputInv s) (hd : s.drv.dstate ≠ .error) : InsideStream s :=
  ⟨h.counted, h.consumed hd⟩

/-- Taking `n` bits from inside the stream does not leave it. -/
def Covers (n : Nat) (s : State) : Prop :=
  InsideStream s → s.inf.ipos.toNat + n ≤ 8 * s.env.cin.length

theorem covers_zero (s : State) : Covers 0 s := fun h => h.2

theorem covers_of_hasBits {n : Nat} {s : State} (h : 8 * s.env.cin.length < 2 ^ 64 → hasBits n s = true) :
    Covers n s := fun hin => (hasBits_iff n s).1 (h hin.1)

theorem Covers.advance_ipos {n : Nat} {s : State} (h : Covers n s) (hin : InsideStream s) :
    (advance n s).inf.ipos.toNat = s.inf.ipos.toNat + n :=
  Machine.advance_ipos n s hin.1 ((hasBits_iff n s).2 (h hin))

theorem Covers.inside {n : Nat} {s : State} (h : Covers n s) (hin : InsideStream s) : InsideStream (advance n s) :=
  ⟨hin.1, by rw [h.advance_ipos hin]; exact h hin⟩

theorem Covers.trans {m n : Nat} {s : State} (hm : Covers m s) (hn : Covers n (advance m s)) : Covers (m + n) s := by
  intro hin
  have h := hn (hm.inside hin)
  rw [hm.advance_ipos hin, advance_env] at h
  omega

theorem readBits_takes {n v : Nat} {s t : State} (h : readBits n s = .ok (v, t)) :
    t = advance n s ∧ v < 2 ^ n ∧ Covers n s := by
  obtain ⟨hb, rfl, rfl⟩ := readBits_ok h
  refine ⟨rfl, nextBits_lt n s, ?_⟩
  rcases hb with rfl | hb
  · exact covers_zero s
  · exact covers_of_hasBits fun _ => hb

theorem decodeSym_takes {lens : List Nat} {sym : Nat} {s t : State} (h : decodeSym lens s = .ok (sym, t)) :
    ∃ k, 1 ≤ k ∧ t = advance k s ∧ Covers k s := by
  obtain ⟨k, hk, _, _, _, rfl, hb⟩ := decodeSym_ok h
  exact ⟨k, hk, rfl, covers_of_hasBits hb⟩

theorem readClls_takes {order : List Nat} {file file' : Vector (BitVec 3) 19} {s t : State}
    (h : readClls order file s = .ok (file', t)) : ∃ n, t = advance n s ∧ Covers n s := by
  induction order generalizing file s with
  | nil => cases h; exact ⟨0, (advance_zero _).symm, covers_zero _⟩
  | cons sym rest ih =>
    unfold readClls at h
    split at h
    · cases h
    · rename_i v s1 hr
      obtain ⟨rfl, _, hc⟩ := readBits_takes hr
      obtain ⟨n, rfl, hn⟩ := ih h
      exact ⟨3 + n, advance_advance .., hc.trans hn⟩

/-! ### Aligning (R43) -/

theorem divUp_eight_mul (n : Nat) : n ≤ divUp n 8 * 8 ∧ ∀ k, n ≤ 8 * k → divUp n 8 * 8 ≤ 8 * k := by
  unfold divUp
  constructor
  · omega
  · intro k hk; omega

theorem alignByte_ipos {s : State} (h : InsideStream s) :
    s.inf.ipos.toNat ≤ (alignByte s).inf.ipos.toNat
      ∧ (alignByte s).inf.ipos.toNat ≤ 8 * s.env.cin.length := by
  obtain ⟨hc, hi⟩ := h
  obtain ⟨h1, h2⟩ := divUp_eight_mul s.inf.ipos.toNat
  have h3 := h2 _ hi
  have h4 : (alignByte s).inf.ipos.toNat = divUp s.inf.ipos.toNat 8 * 8 := by
    simp only [alignByte, State.setInf_inf, BitVec.toNat_ofNat]
    exact Nat.mod_eq_of_lt (h3.trans_lt hc)
  omega

theorem readStoredHdr_takes {len : Nat} {s t : State} (h : readStoredHdr s = .ok (len, t)) :
    t = advance 32 (alignByte s) ∧ len < 2 ^ 16 ∧ Covers 32 (alignByte s) := by
  obtain ⟨⟨l, s1⟩, h1, h⟩ := bind_eq_ok h
  obtain ⟨⟨nl, s2⟩, h2, h⟩ := bind_eq_ok h
  obtain ⟨rfl, hl, hc1⟩ := readBits_takes h1
  obtain ⟨rfl, _, hc2⟩ := readBits_takes h2
  dsimp only at h
  split at h
  · cases h
  · cases h
    exact ⟨advance_advance .., hl, hc1.trans hc2⟩

/-- What a dynamic header that passes its checks writes (R105). -/
theorem readDynHdr_takes {s t : State} (h : readDynHdr s = .ok t) :
    ∃ n hlit hdist hclen file, 1 ≤ n ∧ Covers n s ∧ hlit + 257 ≤ 286 ∧ hdist + 1 ≤ 30
      ∧ t = s.setInf
        { (advance n s).inf with
          nlen := BitVec.ofNat 9 (hlit + 257)
          ndist := BitVec.ofNat 6 (hdist + 1)
          ncode := BitVec.ofNat 5 (hclen + 4)
          clLen := file
          lens := Vector.replicate 316 0
          lidx := 0
          infState := .clSym } := by
  obtain ⟨⟨hlit, s1⟩, h1, h⟩ := bind_eq_ok h
  obtain ⟨⟨hdist, s2⟩, h2, h⟩ := bind_eq_ok h
  obtain ⟨⟨hclen, s3⟩, h3, h⟩ := bind_eq_ok h
  obtain ⟨rfl, _, hc1⟩ := readBits_takes h1
  obtain ⟨rfl, _, hc2⟩ := readBits_takes h2
  obtain ⟨rfl, _, hc3⟩ := readBits_takes h3
  dsimp only at h
  split at h
  · cases h
  · rename_i hcounts
    obtain ⟨⟨file, s4⟩, h4, h⟩ := bind_eq_ok h
    obtain ⟨u, _, h⟩ := bind_eq_ok h
    obtain ⟨n, rfl, hc4⟩ := readClls_takes h4
    cases h
    have hadv : advance n (advance 4 (advance 5 (advance 5 s))) = advance (5 + (5 + (4 + n))) s := by
      simp only [advance_advance, Nat.add_assoc]
    refine ⟨5 + (5 + (4 + n)), hlit, hdist, hclen, file, by omega, ?_, by omega, by omega, ?_⟩
    · exact hc1.trans (hc2.trans (hc3.trans hc4))
    · rw [← hadv]; rfl

end Sys2Proof.Machine
end

section
/-! SUPPORT. What a row that the compressed stream can reach can do (R38, R89): it raises, it moves INF, it moves INF and emits a
byte, or it is a filter tag. Every later fact about rows is a case analysis of this one. -/

namespace Sys2Proof.Machine

/-- The INF_STATE that selects a word of a format (R13, R89); the other formats' rows run inside a step, or at a port. -/
def formatState (f : Format) (w : Nat) : Option InfState :=
  match f with
  | .zhdr => some .zhdr
  | .blkhdr => some .blkhdr
  | .stored => some (if w = 2 then .storedHdr else .storedByte)
  | .dynhdr => some .dynHdr
  | .clsym => some .clSym
  | .llsym => some .sym
  | .micro => some (if w = 7 then .matchByte else .ended)
  | .dsym => none
  | .ftag => none
  | .pixfmt => none
  | .cmd => none
  | .rowans => none

/-- The INF_STATE in which the step runs a row. -/
def runsIn (i : Instr) : Option InfState := formatState (encode i).1 (encode i).2

/-- The INF_STATE that follows the end of a block (R109). -/
def Inf.afterBlock (r : Inf) : InfState := if r.bfinal then .ended else .blkhdr

/-! ### Raising -/

/-- `t` is in ERROR, and is the trap that a cause of the stream takes in `s` unless the header is one that no accepted image
has (R292, R326). -/
def Raised (s t : State) : Prop :=
  t.drv.dstate = .error
    ∧ (s.drv.converted = true → ∃ c : Cause, c.ofStream = true ∧ t = trapEntry .decodeError c s)

theorem raised_trapEntry {c : Cause} (hc : c.ofStream = true) (s : State) : Raised s (trapEntry .decodeError c s) :=
  ⟨rfl, fun _ => ⟨c, hc, rfl⟩⟩

theorem raised_of_raiseDecode {c : Cause} {s t : State} (hc : c.ofStream = true) (h : raiseDecode c s = .next t) :
    Raised s t := by
  cases h; exact raised_trapEntry hc s

/-- A trap does not see the INF registers (R326), so neither does raising. -/
theorem raised_setInf {s t : State} {r : Inf} : Raised (s.setInf r) t ↔ Raised s t := Iff.rfl

theorem raised_windowPush {b : Byte} {s t : State} : Raised (windowPush b s) t ↔ Raised s t := Iff.rfl

/-- Going on with a reading: it raised, or what follows it answers. -/
theorem andThen_raised {α : Type} {s t : State} {r : Except Stop α} {k : α → Result} (hr : RaisesOfStream r)
    (h : andThen s r k = .next t) : Raised s t ∨ ∃ a, r = .ok a ∧ k a = .next t := by
  rcases andThen_next h with ⟨a, ha, hk⟩ | ⟨c, hc, rfl⟩
  · exact .inr ⟨a, ha, hk⟩
  · exact .inl (raised_trapEntry (hr c hc) s)

/-! ### Emitting a byte (R140, R221 to R223) -/

/-- `s` with the byte in the window and in the current row at RX (R140, R222). -/
def bytePlaced (b : Byte) (s : State) : State :=
  ((windowPush b s).setCurRow (s.curRow.write s.flt.rx b)).setFlt { s.flt with rx := s.flt.rx + 1 }

theorem bytePlaced_curRow (b : Byte) (s : State) : (bytePlaced b s).curRow = s.curRow.write s.flt.rx b :=
  State.curRow_setCurRow (windowPush b s) _

theorem bytePlaced_prevRow (b : Byte) (s : State) : (bytePlaced b s).prevRow = s.prevRow :=
  State.prevRow_setCurRow (windowPush b s) _

/-- `s` with the byte placed and the filter of the whole row reversed (R223). -/
def rowReconstructed (b : Byte) (s : State) : State :=
  (bytePlaced b s).setCurRow
    (reconstruct s.flt.ftype s.drv.fbpp s.prevRow s.flt.pstride (s.curRow.write s.flt.rx b))

/-- The three ways in which an emitted byte does not raise: it is a legal tag, a byte inside a row, or a row's last byte. -/
inductive Emitted (b : Byte) (s : State) : State → Prop
  | tag (hp : s.flt.rphase = .tag) (hb : b.toNat ≤ 4) :
      Emitted b s ((windowPush b s).setFlt { s.flt with ftype := BitVec.ofNat 3 b.toNat, rphase := .data, rx := 0 })
  | midRow (hp : s.flt.rphase = .data) (hx : s.flt.rx + 1 ≠ s.flt.pstride) : Emitted b s (bytePlaced b s)
  | lastByte (hp : s.flt.rphase = .data) (hx : s.flt.rx + 1 = s.flt.pstride) (r : RowRecord) :
      Emitted b s (presented r (rowReconstructed b s))

theorem emit_tag_cases {b : Byte} {s t : State} (hp : s.flt.rphase = .tag) (h : emit b s = .next t) :
    Raised s t ∨ Emitted b s t := by
  rw [emit_tag hp, runTag_decodeFtag] at h
  split at h
  · rename_i hb
    cases h
    exact .inr (.tag hp hb)
  · exact .inl (raised_windowPush.1 (raised_of_raiseDecode rfl h))

theorem emit_lastByte_cases {b : Byte} {s t : State} (hp : s.flt.rphase = .data) (hx : s.flt.rx + 1 = s.flt.pstride)
    (h : emit b s = .next t) : Raised s t ∨ Emitted b s t := by
  have hrow : emit b s = runPixel (decodePixfmt s.drv.colortype s.drv.bitdepth) (rowReconstructed b s) := by
    rw [rowReconstructed, ← bytePlaced_prevRow b s, ← bytePlaced_curRow b s]
    exact emit_lastByte hp hx
  rw [hrow] at h
  have hpresent : ∀ {px}, presentRow px (rowReconstructed b s) = .next t → Emitted b s t := by
    intro px hpx; cases hpx; exact .lastByte hp hx _
  rcases runPixel_cases s.drv.colortype s.drv.bitdepth (rowReconstructed b s) with ⟨px, hpx⟩ | hu
  · exact .inr (hpresent (hpx ▸ h))
  · by_cases hc : s.drv.converted = true
    · obtain ⟨px, hpx⟩ := runPixel_converted hc (rowReconstructed b s)
      exact .inr (hpresent (hpx ▸ h))
    · rw [hu] at h
      cases h
      exact .inl ⟨rfl, fun hc' => absurd hc' hc⟩

/-- Everything `Emit` can do. -/
theorem emit_cases {b : Byte} {s t : State} (h : emit b s = .next t) : Raised s t ∨ Emitted b s t := by
  cases hp : s.flt.rphase with
  | tag => exact emit_tag_cases hp h
  | data =>
    by_cases hx : s.flt.rx + 1 = s.flt.pstride
    · exact emit_lastByte_cases hp hx h
    · rw [emit_midRow hp hx] at h
      cases h
      exact .inr (.midRow hp hx)

/-! ### The moves of INF -/

/-- What the rows of the stream do to INF, and which byte they emit: row `i` in state `s` emits `out` and leaves INF at `r`. -/
inductive RowMove (s : State) : Instr → Option Byte → Inf → Prop
  | zhdr (cmf flg : Byte) : RowMove s (.zhdr cmf flg) none { s.inf with infState := .blkhdr }
  | blkStored (final : Bool) :
      RowMove s (.blkStored final) none { s.inf with bfinal := final, btype := 0, infState := .storedHdr }
  | blkFixed (final : Bool) :
      RowMove s (.blkFixed final) none
        { s.inf with bfinal := final, btype := 1, llLen := fixedLlLen, dLen := fixedDLen, infState := .sym }
  | blkDynamic (final : Bool) :
      RowMove s (.blkDynamic final) none { s.inf with bfinal := final, btype := 2, infState := .dynHdr }
  | storedHdr (len : Nat) (hlen : len < 2 ^ 16) (hc : Covers 32 (alignByte s)) :
      RowMove s .storedHdr none
        { (advance 32 (alignByte s)).inf with
          storedRem := BitVec.ofNat 16 len
          infState := if len = 0 then s.inf.afterBlock else .storedByte }
  | storedByte (b : Byte) (hc : Covers 8 s) :
      RowMove s .storedByte (some b)
        { (advance 8 s).inf with
          storedRem := s.inf.storedRem - 1
          infState := if s.inf.storedRem - 1 = 0 then s.inf.afterBlock else s.inf.infState }
  | dynHdr (n hlit hdist hclen : Nat) (file : Vector (BitVec 3) 19) (hn : 1 ≤ n) (hc : Covers n s)
      (hlit_le : hlit + 257 ≤ 286) (hdist_le : hdist + 1 ≤ 30) :
      RowMove s .dynHdr none
        { (advance n s).inf with
          nlen := BitVec.ofNat 9 (hlit + 257)
          ndist := BitVec.ofNat 6 (hdist + 1)
          ncode := BitVec.ofNat 5 (hclen + 4)
          clLen := file
          lens := Vector.replicate 316 0
          lidx := 0
          infState := .clSym }
  | lengths {i : Instr} (hi : runsIn i = some .clSym) (n rep : Nat) (lens : Vector (BitVec 4) 316) (hc : Covers n s)
      (hroom : rep = 1 ∨ s.inf.lidx.toNat + rep ≤ s.inf.lensTotal)
      (hmore : (s.inf.lidx + BitVec.ofNat 9 rep).toNat ≠ s.inf.lensTotal) :
      RowMove s i none { (advance n s).inf with lens := lens, lidx := s.inf.lidx + BitVec.ofNat 9 rep }
  | tables {i : Instr} (hi : runsIn i = some .clSym) (n : Nat) (lidx : BitVec 9) (lens : Vector (BitVec 4) 316)
      (ll : Vector (BitVec 4) 288) (d : Vector (BitVec 4) 32) (hc : Covers n s) :
      RowMove s i none
        { (advance n s).inf with lens := lens, lidx := lidx, llLen := ll, dLen := d, infState := .sym }
  | lit (b : Byte) : RowMove s (.lit b) (some b) s.inf
  | eob : RowMove s .eob none { s.inf with infState := s.inf.afterBlock }
  | length {i : Instr} (hi : runsIn i = some .sym) (hl : i.isLength = true) (n len : Nat) (hc : Covers n s)
      (hmin : 3 ≤ len) (hmax : len ≤ 258) :
      RowMove s i none { (advance n s).inf with matchLen := BitVec.ofNat 9 len }
  | distance {i : Instr} (hi : runsIn i = none) (n dist : Nat) (hc : Covers n s) (hmin : 1 ≤ dist)
      (hmax : dist ≤ s.inf.hist) :
      RowMove s i none { (advance n s).inf with matchDist := BitVec.ofNat 16 dist, infState := .matchByte }
  | matchByte :
      RowMove s .matchByte (some (s.mem.win.read (matchIndex s)))
        { s.inf with
          matchLen := s.inf.matchLen - 1
          infState := if s.inf.matchLen - 1 = 0 then .sym else s.inf.infState }

/-- What follows the move of INF: nothing, or the emitted byte goes down to FLT. -/
def Downstream (out : Option Byte) (s t : State) : Prop :=
  match out with
  | none => t = s
  | some b => Emitted b s t

/-- Row `i` raises, or moves INF. -/
def RowResult (i : Instr) (s t : State) : Prop :=
  Raised s t ∨ ∃ out r, RowMove s i out r ∧ Downstream out (s.setInf r) t

theorem RowMove.silent {i : Instr} {s : State} {r : Inf} (h : RowMove s i none r) : RowResult i s (s.setInf r) :=
  .inr ⟨none, r, h, rfl⟩

theorem RowMove.emits {i : Instr} {s t : State} {b : Byte} {r : Inf} (h : RowMove s i (some b) r)
    (ht : emit b (s.setInf r) = .next t) : RowResult i s t :=
  (emit_cases ht).imp raised_setInf.1 fun he => ⟨some b, r, h, he⟩

/-! ### Headers and stored blocks -/

theorem execZhdr_result {cmf flg : Byte} {s t : State} (h : execZhdr cmf flg s = .next t) :
    RowResult (.zhdr cmf flg) s t := by
  unfold execZhdr at h
  iterate 4
    split at h
    · exact .inl (raised_of_raiseDecode rfl h)
  cases h
  exact (RowMove.zhdr cmf flg).silent

/-- A choice between two next INF_STATEs is a choice of INF_STATE. -/
theorem ite_setInf_infState (p : Prop) [Decidable p] (s : State) (r : Inf) (j k : InfState) :
    (if p then s.setInf { r with infState := j } else s.setInf { r with infState := k })
      = s.setInf { r with infState := if p then j else k } := by
  split <;> rfl

theorem execStoredHdr_result {s t : State} (h : execStoredHdr s = .next t) : RowResult .storedHdr s t := by
  rcases andThen_raised (readStoredHdr_raises s) h with h | ⟨⟨len, s1⟩, hr, h⟩
  · exact .inl h
  · obtain ⟨rfl, hlen, hc⟩ := readStoredHdr_takes hr
    have hstate := ite_setInf_infState (len = 0) s
      { (advance 32 (alignByte s)).inf with storedRem := BitVec.ofNat 16 len } s.inf.afterBlock .storedByte
    cases h
    exact hstate ▸ (RowMove.storedHdr len hlen hc).silent

theorem execStoredByte_result {s t : State} (h : execStoredByte s = .next t) : RowResult .storedByte s t := by
  rcases andThen_raised (readBits_raises 8 s) h with h | ⟨⟨b, s1⟩, hr, h⟩
  · exact .inl h
  · obtain ⟨rfl, _, hc⟩ := readBits_takes hr
    have hstate := ite_setInf_infState (s.inf.storedRem - 1 = 0) s
      { (advance 8 s).inf with storedRem := s.inf.storedRem - 1 } s.inf.afterBlock s.inf.infState
    exact (RowMove.storedByte (BitVec.ofNat 8 b) hc).emits ((congrArg (emit _) hstate.symm).trans h)

theorem execDynHdr_result {s t : State} (h : execDynHdr s = .next t) : RowResult .dynHdr s t := by
  rcases andThen_raised (readDynHdr_raises s) h with h | ⟨s1, hr, h⟩
  · exact .inl h
  · obtain ⟨n, hlit, hdist, hclen, file, hn, hc, h1, h2, rfl⟩ := readDynHdr_takes hr
    cases h
    exact (RowMove.dynHdr n hlit hdist hclen file hn hc h1 h2).silent

/-! ### Code-length symbols -/

theorem appendLens_eq (rep : Nat) (v : BitVec 4) (s : State) :
    ∃ lens, appendLens rep v s = s.setInf { s.inf with lens := lens, lidx := s.inf.lidx + BitVec.ofNat 9 rep } := by
  induction rep generalizing s with
  | zero => exact ⟨s.inf.lens, by simp [appendLens, State.setInf]⟩
  | succ n ih =>
    obtain ⟨lens, h⟩ := ih (s.setInf
      { s.inf with lens := s.inf.lens.setIfInBounds s.inf.lidx.toNat v, lidx := s.inf.lidx + 1 })
    refine ⟨lens, h.trans ?_⟩
    have hl : s.inf.lidx + 1 + BitVec.ofNat 9 n = s.inf.lidx + BitVec.ofNat 9 (n + 1) := by
      rw [BitVec.ofNat_add, BitVec.add_assoc, BitVec.add_comm 1]
      rfl
    simp only [State.setInf_inf, hl]
    rfl

theorem completeTables_result {s t : State} (h : completeTables s = .next t) :
    Raised s t ∨ ∃ ll d, t = s.setInf { s.inf with llLen := ll, dLen := d, infState := .sym } := by
  unfold completeTables at h
  dsimp only at h
  split at h
  · exact .inl (raised_of_raiseDecode rfl h)
  · rcases andThen_raised (checkLengths_raises _ _) h with h | ⟨_, _, h⟩
    · exact .inl h
    · rcases andThen_raised (checkLengths_raises _ _) h with h | ⟨_, _, h⟩
      · exact .inl h
      · cases h
        exact .inr ⟨_, _, rfl⟩

/-- The end of a code-length symbol that has read `n` extra bits and appends `rep` lengths (R107). -/
theorem clDone_result {i : Instr} {s t : State} {n rep : Nat} {v : BitVec 4} (hi : runsIn i = some .clSym)
    (hc : Covers n s) (hroom : rep = 1 ∨ s.inf.lidx.toNat + rep ≤ s.inf.lensTotal)
    (h : clDone (appendLens rep v (advance n s)) = .next t) : RowResult i s t := by
  obtain ⟨lens, happ⟩ := appendLens_eq rep v (advance n s)
  rw [happ] at h
  unfold clDone at h
  split at h
  · rcases completeTables_result h with h | ⟨ll, d, rfl⟩
    · exact .inl h
    · exact (RowMove.tables hi n _ lens ll d hc).silent
  · rename_i hmore
    cases h
    exact (RowMove.lengths hi n rep lens hc hroom hmore).silent

theorem clLiteral_result {i : Instr} {s t : State} {v : BitVec 4} (hi : runsIn i = some .clSym)
    (h : clLiteral v s = .next t) : RowResult i s t :=
  clDone_result hi (covers_zero s) (.inl rfl) (by rw [advance_zero]; exact h)

theorem clRepeat_result {i : Instr} {s t : State} {base n : Nat} {v : BitVec 4} (hi : runsIn i = some .clSym)
    (h : clRepeat base n v s = .next t) : RowResult i s t := by
  rcases andThen_raised (readBits_raises n s) h with h | ⟨⟨e, s1⟩, hr, h⟩
  · exact .inl h
  · obtain ⟨rfl, _, hc⟩ := readBits_takes hr
    dsimp only at h
    split at h
    · exact .inl (raised_of_raiseDecode rfl h)
    · rename_i hroom
      exact clDone_result hi hc (.inr (not_lt.1 hroom)) h

theorem execCl16_result {s t : State} (h : execCl16 s = .next t) : RowResult .cl16 s t := by
  unfold execCl16 at h
  split at h
  · exact .inl (raised_of_raiseDecode rfl h)
  · exact clRepeat_result rfl h

/-! ### Literal/length and distance symbols -/

theorem lengthSymbol_result {i : Instr} {s t : State} {base n : Nat} (hi : runsIn i = some .sym)
    (hl : i.isLength = true) (hmin : 3 ≤ base) (hmax : base + 2 ^ n ≤ 259) (h : lengthSymbol base n s = .next t) :
    RowResult i s t := by
  rcases andThen_raised (readBits_raises n s) h with h | ⟨⟨e, s1⟩, hr, h⟩
  · exact .inl h
  · obtain ⟨rfl, he, hc⟩ := readBits_takes hr
    cases h
    exact (RowMove.length hi hl n (base + e) hc (by omega) (by omega)).silent

theorem distanceSymbol_result {i : Instr} {s t : State} {base n : Nat} (hi : runsIn i = none) (hmin : 1 ≤ base)
    (h : distanceSymbol base n s = .next t) : RowResult i s t := by
  rcases andThen_raised (readBits_raises n s) h with h | ⟨⟨e, s1⟩, hr, h⟩
  · exact .inl h
  · obtain ⟨rfl, _, hc⟩ := readBits_takes hr
    dsimp only at h
    split at h
    · exact .inl (raised_of_raiseDecode rfl h)
    · rename_i hhist
      cases h
      exact (RowMove.distance hi n (base + e) hc (by omega) (not_lt.1 hhist)).silent

theorem execMatchByte_result {s t : State} (h : execMatchByte s = .next t) : RowResult .matchByte s t := by
  have hstate := ite_setInf_infState (s.inf.matchLen - 1 = 0) s
    { s.inf with matchLen := s.inf.matchLen - 1 } .sym s.inf.infState
  exact RowMove.matchByte.emits ((congrArg (emit _) hstate.symm).trans h)

/-! ### All rows of the stream -/

/-- A filter tag's row (R221, R229): it raises, or the row's data follows. -/
def TagResult (i : Instr) (s t : State) : Prop :=
  (encode i).1 = .ftag
    ∧ (Raised s t ∨ ∃ f : BitVec 3, t = s.setFlt { s.flt with ftype := f, rphase := .data, rx := 0 })

theorem acceptTag_result {i : Instr} {s t : State} {f : BitVec 3} (hi : (encode i).1 = .ftag)
    (h : acceptTag f s = .next t) : TagResult i s t := by
  cases h; exact ⟨hi, .inr ⟨f, rfl⟩⟩

/-- Everything that a row of the stream can do. -/
theorem exec_fromStream {i : Instr} {s t : State} (hi : i.fromStream = true) (h : exec i s = .next t) :
    RowResult i s t ∨ TagResult i s t := by
  cases i with
  | zhdr cmf flg => exact .inl (execZhdr_result h)
  | blkStored final => cases h; exact .inl (RowMove.blkStored final).silent
  | blkFixed final => cases h; exact .inl (RowMove.blkFixed final).silent
  | blkDynamic final => cases h; exact .inl (RowMove.blkDynamic final).silent
  | blkReserved final => exact .inl (.inl (raised_of_raiseDecode rfl h))
  | storedHdr => exact .inl (execStoredHdr_result h)
  | storedByte => exact .inl (execStoredByte_result h)
  | dynHdr => exact .inl (execDynHdr_result h)
  | cl0 | cl1 | cl2 | cl3 | cl4 | cl5 | cl6 | cl7 | cl8 | cl9 | cl10 | cl11 | cl12 | cl13 | cl14 | cl15 =>
    exact .inl (clLiteral_result rfl h)
  | cl16 => exact .inl (execCl16_result h)
  | cl17 | cl18 => exact .inl (clRepeat_result rfl h)
  | lit b => exact .inl ((RowMove.lit b).emits h)
  | eob => cases h; exact .inl RowMove.eob.silent
  | len257 | len258 | len259 | len260 | len261 | len262 | len263 | len264 | len265 | len266 | len267 | len268 | len269
  | len270 | len271 | len272 | len273 | len274 | len275 | len276 | len277 | len278 | len279 | len280 | len281 | len282
  | len283 | len284 | len285 =>
    dsimp only [exec] at h
    exact .inl (lengthSymbol_result rfl rfl (by decide) (by decide) h)
  | ll286 | ll287 => exact .inl (.inl (raised_of_raiseDecode rfl h))
  | dist0 | dist1 | dist2 | dist3 | dist4 | dist5 | dist6 | dist7 | dist8 | dist9 | dist10 | dist11 | dist12 | dist13
  | dist14 | dist15 | dist16 | dist17 | dist18 | dist19 | dist20 | dist21 | dist22 | dist23 | dist24 | dist25 | dist26
  | dist27 | dist28 | dist29 =>
    dsimp only [exec] at h
    exact .inl (distanceSymbol_result rfl (by decide) h)
  | dist30 | dist31 => exact .inl (.inl (raised_of_raiseDecode rfl h))
  | matchByte => exact .inl (execMatchByte_result h)
  | endStep => exact .inl (.inl (raised_of_raiseDecode rfl h))
  | filtNone | filtSub | filtUp | filtAvg | filtPaeth => exact .inr (acceptTag_result rfl h)
  | filtReserved5 => exact .inr ⟨rfl, .inl (raised_of_raiseDecode rfl h)⟩
  | filtReserved6to7 low => exact .inr ⟨rfl, .inl (raised_of_raiseDecode rfl h)⟩
  | filtReserved8to15 low => exact .inr ⟨rfl, .inl (raised_of_raiseDecode rfl h)⟩
  | filtReserved16to31 low => exact .inr ⟨rfl, .inl (raised_of_raiseDecode rfl h)⟩
  | filtReserved32to63 low => exact .inr ⟨rfl, .inl (raised_of_raiseDecode rfl h)⟩
  | filtReserved64to127 low => exact .inr ⟨rfl, .inl (raised_of_raiseDecode rfl h)⟩
  | filtReserved128to255 low => exact .inr ⟨rfl, .inl (raised_of_raiseDecode rfl h)⟩
  | pixG1 | pixG2 | pixG4 | pixG8 | pixRgb8 | pixI1 | pixI2 | pixI4 | pixI8 | pixGa8 | pixRgba8 | pixG16 | pixRgb16
  | pixGa16 | pixRgba16 | reset | commitHeader | start | cmdIllegal0 | answerContinue | answerStop => cases hi
  | pixOther ct bd => cases hi
  | cmdIllegal4to7 low => cases hi

end Sys2Proof.Machine
end

section
/-! SUPPORT. What one step of the core can do (R296): it raises, it runs one row, or it takes a whole match (R141). -/

namespace Sys2Proof.Machine

theorem fromStream_of_runsIn {i : Instr} {k : InfState} (h : runsIn i = some k) : i.fromStream = true := by
  have hne : ∀ f, formatState f (encode i).2 = none → (encode i).1 ≠ f := by
    rintro f hf rfl
    rw [runsIn, hf] at h
    cases h
  simp [Instr.fromStream, hne .cmd rfl, hne .rowans rfl, hne .pixfmt rfl]

theorem fromStream_of_dsym {i : Instr} (h : (encode i).1 = .dsym) : i.fromStream = true := by
  simp [Instr.fromStream, h]

theorem runsIn_of_dsym {i : Instr} (h : (encode i).1 = .dsym) : runsIn i = none := by
  rw [runsIn, h, formatState]

theorem runsIn_of_ftag {i : Instr} (h : (encode i).1 = .ftag) : runsIn i = none := by
  rw [runsIn, h, formatState]

theorem runsIn_of_isLength {i : Instr} (h : i.isLength = true) : runsIn i = some .sym := by
  cases i <;> first | rfl | cases h

/-! ### The row fetched -/

/-- The word at IPOS selects row `i`, and has `k` bits; only INF_STATE selects the rows whose word has none (R89). -/
structure Fetches (s : State) (i : Instr) (k : Nat) : Prop where
  runs : runsIn i = some s.inf.infState
  covers : Covers k s
  bits : 1 ≤ k ∨ s.inf.infState ∈ [.storedHdr, .storedByte, .dynHdr, .matchByte, .ended]
  noBits : s.inf.infState = .matchByte → k = 0

theorem fetchWord_fetches {s s1 : State} {f : Format} {w : Nat} {i : Instr} (h : fetchWord s = .ok (f, w, s1))
    (hi : decode f w = .ok i) : ∃ k, s1 = advance k s ∧ Fetches s i k := by
  obtain ⟨k, hs1, hc, hw⟩ := fetchWord_ok h
  have hrow : runsIn i = formatState f w := by rw [runsIn, (decode_hasWord hi).2]
  have hsel : formatState f w = some s.inf.infState
      ∧ (1 ≤ k ∨ s.inf.infState ∈ [.storedHdr, .storedByte, .dynHdr, .matchByte, .ended])
      ∧ (s.inf.infState = .matchByte → k = 0) := by
    split at hw <;> rename_i hst <;> obtain ⟨rfl, hk, hw⟩ := hw <;> rw [hst]
    case h_1 | h_2 | h_6 | h_7 => exact ⟨rfl, .inl (by omega), nofun⟩
    case h_3 | h_4 | h_5 | h_8 | h_9 => subst hw; exact ⟨rfl, .inr (by decide), fun _ => hk⟩
  exact ⟨k, hs1, hrow.trans hsel.1, fun hin => hc hin.1 hin.2, hsel.2.1, hsel.2.2⟩

/-! ### A length and its distance -/

/-- The step takes a length and a distance (R141): the bits of both symbols and their extra fields, and nothing else but the
registers of the match. -/
structure WholeMatch (s t : State) (n len dist : Nat) : Prop where
  some_bits : 1 ≤ n
  covers : Covers n s
  len_min : 3 ≤ len
  len_max : len ≤ 258
  dist_min : 1 ≤ dist
  dist_max : dist ≤ s.inf.hist
  state : t = s.setInf
    { (advance n s).inf with
      matchLen := BitVec.ofNat 9 len, matchDist := BitVec.ofNat 16 dist, infState := .matchByte }

theorem RowMove.of_isLength {s : State} {i : Instr} {out : Option Byte} {r : Inf} (h : RowMove s i out r)
    (hl : i.isLength = true) :
    ∃ n len, out = none ∧ Covers n s ∧ 3 ≤ len ∧ len ≤ 258
      ∧ r = { (advance n s).inf with matchLen := BitVec.ofNat 9 len } := by
  have hsym := runsIn_of_isLength hl
  cases h with
  | length _ _ n len hc hmin hmax => exact ⟨n, len, rfl, hc, hmin, hmax, rfl⟩
  | lengths hi | tables hi | distance hi => rw [hsym] at hi; cases hi
  | _ => cases hl

theorem RowMove.of_dsym {s : State} {i : Instr} {out : Option Byte} {r : Inf} (h : RowMove s i out r)
    (hd : (encode i).1 = .dsym) :
    ∃ n dist, out = none ∧ Covers n s ∧ 1 ≤ dist ∧ dist ≤ s.inf.hist
      ∧ r = { (advance n s).inf with matchDist := BitVec.ofNat 16 dist, infState := .matchByte } := by
  have hnone := runsIn_of_dsym hd
  cases h with
  | distance _ n dist hc hmin hmax => exact ⟨n, dist, rfl, hc, hmin, hmax, rfl⟩
  | lengths hi | tables hi | length hi => rw [hnone] at hi; cases hi
  | _ => cases hd

/-- The distance half of the step (R141). -/
theorem distanceStep_cases {s t : State} (h : distanceStep s = .next t) :
    Raised s t ∨ ∃ n dist, Covers n s ∧ 1 ≤ dist ∧ dist ≤ s.inf.hist
      ∧ t = s.setInf { (advance n s).inf with matchDist := BitVec.ofNat 16 dist, infState := .matchByte } := by
  rcases distanceStep_next h with ⟨c, hc, rfl⟩ | ⟨d, s1, j, hdec, hj, hexec⟩
  · exact .inl (raised_trapEntry (decodeSym_raises _ _ c hc) s)
  · obtain ⟨k, _, rfl, hk⟩ := decodeSym_takes hdec
    have hds : (encode j).1 = .dsym := by rw [(decode_hasWord hj).2]
    rcases exec_fromStream (fromStream_of_dsym hds) hexec with (hr | ⟨out, r, hmove, hdown⟩) | ⟨htag, _⟩
    · exact .inl hr
    · obtain ⟨n, dist, rfl, hn, hmin, hmax, rfl⟩ := hmove.of_dsym hds
      refine .inr ⟨k + n, dist, hk.trans hn, hmin, hmax, hdown.trans ?_⟩
      rw [advance_advance]
      rfl
    · rw [hds] at htag; cases htag

/-! ### The core's step -/

/-- The step runs one row: `i` was fetched with `k` bits, moved INF to `r` and emitted `out`. -/
structure RunsRow (s t : State) (i : Instr) (k : Nat) (out : Option Byte) (r : Inf) : Prop where
  fetches : Fetches s i k
  move : RowMove (advance k s) i out r
  downstream : Downstream out (s.setInf r) t
  alone : i.isLength = false ∨ t.drv.dstate ≠ .decoding

/-- Everything a step of the core can do. -/
theorem coreStep_cases {s t : State} (h : coreStep s = .next t) :
    Raised s t ∨ (∃ i k out r, RunsRow s t i k out r)
      ∨ (s.inf.infState = .sym ∧ ∃ n len dist, WholeMatch s t n len dist) := by
  rcases coreStep_next h with ⟨c, hc, rfl⟩ | ⟨f, w, s1, i, hfetch, hi, hrun⟩
  · exact .inl (raised_trapEntry (fetchWord_raises s c hc) s)
  obtain ⟨k, rfl, hf⟩ := fetchWord_fetches hfetch hi
  have hexec : ∀ {u}, exec i (advance k s) = .next u →
      Raised s u ∨ ∃ out r, RowMove (advance k s) i out r ∧ Downstream out (s.setInf r) u := by
    intro u hu
    rcases exec_fromStream (fromStream_of_runsIn hf.runs) hu with hres | ⟨htag, _⟩
    · exact hres
    · have hruns := hf.runs
      rw [runsIn_of_ftag htag] at hruns
      cases hruns
  rcases runElement_next hrun with ⟨hrow, halone⟩ | ⟨u, hlen, hl, hdec, hdist⟩
  · exact (hexec hrow).imp_right fun ⟨out, r, hmove, hdown⟩ => .inl ⟨i, k, out, r, hf, hmove, hdown, halone⟩
  · have hsym : s.inf.infState = .sym := by
      have hruns := hf.runs
      rw [runsIn_of_isLength hl] at hruns
      exact (Option.some.inj hruns).symm
    rcases hexec hlen with ⟨herr, _⟩ | ⟨out, r, hmove, hdown⟩
    · rw [herr] at hdec; cases hdec
    obtain ⟨n, len, rfl, hn, hmin, hmax, rfl⟩ := hmove.of_isLength hl
    cases hdown
    rcases distanceStep_cases hdist with hr | ⟨m, dist, hm, hdmin, hdmax, rfl⟩
    · exact .inl hr
    · have hk : 1 ≤ k := hf.bits.resolve_right (by rw [hsym]; decide)
      refine .inr (.inr ⟨hsym, k + (n + m), len, dist, by omega, ?_, hmin, hmax, hdmin, hdmax, ?_⟩)
      · exact hf.covers.trans (hn.trans hm)
      · rw [← advance_advance, ← advance_advance]
        rfl

end Sys2Proof.Machine
end

section
/-! SUPPORT. Where IPOS and the code tables go in one step of the core (R12, R18, R334, R372), and the obligations about them. -/

namespace Sys2Proof.Machine

/-! ### Downstream of INF -/

/-- Emitting a byte moves WPOS and HIST of INF only (R140). -/
theorem Downstream.inf_eq {out : Option Byte} {s t : State} (h : Downstream out s t) :
    t.inf = { s.inf with wpos := t.inf.wpos, hist := t.inf.hist } := by
  cases out with
  | none => cases h; rfl
  | some b => cases h <;> rfl

theorem Downstream.env_eq {out : Option Byte} {s t : State} (h : Downstream out s t) : t.env = s.env := by
  cases out with
  | none => cases h; rfl
  | some b => cases h <;> rfl

theorem Downstream.params_eq {out : Option Byte} {s t : State} (h : Downstream out s t) : t.params = s.params := by
  cases out with
  | none => cases h; rfl
  | some b => cases h <;> rfl

/-! ### IPOS -/

/-- How far a row moves IPOS: STORED_HDR aligns and takes 32 bits, every other row takes some number of bits, which is 0 only
where the row's word had bits or a byte of a match is copied. -/
theorem RowMove.takes {s : State} {i : Instr} {out : Option Byte} {r : Inf} (h : RowMove s i out r) :
    (i = .storedHdr ∧ Covers 32 (alignByte s) ∧ r.ipos = (advance 32 (alignByte s)).inf.ipos)
    ∨ ∃ n, Covers n s ∧ r.ipos = (advance n s).inf.ipos
        ∧ (1 ≤ n ∨ ∀ k, runsIn i = some k → k ∈ [InfState.zhdr, .blkhdr, .clSym, .sym, .matchByte])
        ∧ (runsIn i = some .matchByte → n = 0) := by
  have hstay : r.ipos = s.inf.ipos → r.ipos = (advance 0 s).inf.ipos := fun hr => by rw [hr, advance_zero]
  have hnot : ∀ {a}, runsIn i = some a → a ≠ .matchByte → ∀ n : Nat, runsIn i = some .matchByte → n = 0 := by
    intro a ha hne n hmb
    exact absurd (Option.some.inj (ha.symm.trans hmb)) hne
  have hone : ∀ {a}, runsIn i = some a → a ∈ [InfState.zhdr, .blkhdr, .clSym, .sym, .matchByte] →
      ∀ k, runsIn i = some k → k ∈ [InfState.zhdr, .blkhdr, .clSym, .sym, .matchByte] := by
    intro a ha hmem k hk
    rw [ha] at hk
    exact Option.some.inj hk ▸ hmem
  cases h with
  | storedHdr len hlen hc => exact .inl ⟨rfl, hc, rfl⟩
  | storedByte b hc => exact .inr ⟨8, hc, rfl, .inl (by decide), fun h => absurd h (by decide)⟩
  | dynHdr n hlit hdist hclen file hn hc _ _ => exact .inr ⟨n, hc, rfl, .inl hn, fun h => absurd h (by decide)⟩
  | lengths hi n rep lens hc => exact .inr ⟨n, hc, rfl, .inr (hone hi (by decide)), hnot hi (by decide) n⟩
  | tables hi n lidx lens ll d hc => exact .inr ⟨n, hc, rfl, .inr (hone hi (by decide)), hnot hi (by decide) n⟩
  | length hi _ n len hc => exact .inr ⟨n, hc, rfl, .inr (hone hi (by decide)), hnot hi (by decide) n⟩
  | distance hi n dist hc => exact .inr ⟨n, hc, rfl, .inr (by rw [hi]; simp), by rw [hi]; simp⟩
  | zhdr | blkStored | blkFixed | blkDynamic | lit | eob | matchByte =>
    exact .inr ⟨0, covers_zero s, hstay rfl, .inr (hone rfl (by decide)), fun _ => rfl⟩

/-- A row moves IPOS forward and not out of the stream; only the copy of a match byte leaves it. -/
theorem RunsRow.ipos {s t : State} {i : Instr} {k : Nat} {out : Option Byte} {r : Inf} (h : RunsRow s t i k out r)
    (hin : InsideStream s) :
    r.ipos.toNat ≤ 8 * s.env.cin.length
      ∧ (s.inf.infState ≠ .matchByte → s.inf.ipos.toNat < r.ipos.toNat)
      ∧ (s.inf.infState = .matchByte → r.ipos = s.inf.ipos) := by
  obtain ⟨hruns, hk, hbits, hno⟩ := h.fetches
  have hin' := hk.inside hin
  have hpos := hk.advance_ipos hin
  rcases h.move.takes with ⟨rfl, hc, hr⟩ | ⟨n, hc, hr, hn, hmb⟩
  · have halign := alignByte_ipos hin'
    have hinA : InsideStream (alignByte (advance k s)) := ⟨hin.1, halign.2⟩
    have hposA := hc.advance_ipos hinA
    have hle := (hc.inside hinA).2
    rw [hr]
    refine ⟨hle, fun _ => by omega, fun hst => ?_⟩
    rw [hst] at hruns
    cases hruns
  · have hposN := hc.advance_ipos hin'
    rw [hr]
    refine ⟨(hc.inside hin').2, fun hst => ?_, fun hst => ?_⟩
    · have hsome : 1 ≤ n ∨ 1 ≤ k := by
        rcases hn with hn | hn
        · exact .inl hn
        · refine hbits.symm.imp_left fun hmem => ?_
          have hmem' := hn _ hruns
          cases hx : s.inf.infState <;> simp_all
      omega
    · rw [hmb (hst ▸ hruns), hno hst, advance_zero, advance_zero]

theorem WholeMatch.ipos {s t : State} {n len dist : Nat} (h : WholeMatch s t n len dist) (hin : InsideStream s) :
    t.inf.ipos.toNat ≤ 8 * s.env.cin.length ∧ s.inf.ipos.toNat < t.inf.ipos.toNat := by
  obtain ⟨hn, hc, _, _, _, _, rfl⟩ := h
  have hpos := hc.advance_ipos hin
  have hle := (hc.inside hin).2
  exact ⟨hle, show s.inf.ipos.toNat < (advance n s).inf.ipos.toNat by omega⟩

theorem RunsRow.ipos_next {s t : State} {i : Instr} {k : Nat} {out : Option Byte} {r : Inf}
    (h : RunsRow s t i k out r) : t.inf.ipos = r.ipos := by
  rw [h.downstream.inf_eq]; rfl

/-- In MATCH_BYTE the core copies a byte (R148). -/
theorem RowMove.of_matchByte {s : State} {i : Instr} {out : Option Byte} {r : Inf} (h : RowMove s i out r)
    (hi : runsIn i = some .matchByte) : r.matchLen = s.inf.matchLen - 1 := by
  cases h with
  | matchByte => rfl
  | lengths hi' | tables hi' | length hi' | distance hi' => rw [hi] at hi'; cases hi'
  | zhdr | blkStored | blkFixed | blkDynamic | storedHdr | storedByte | dynHdr | lit | eob => cases hi

/-! ### The code tables -/

/-- The rows that write LL_LEN and D_LEN (R18, R104, R108). -/
theorem RowMove.tables_cases {s : State} {i : Instr} {out : Option Byte} {r : Inf} (h : RowMove s i out r) :
    (r.llLen = s.inf.llLen ∧ r.dLen = s.inf.dLen)
    ∨ (runsIn i = some .blkhdr ∧ r.btype = 1 ∧ r.infState = .sym)
    ∨ (runsIn i = some .clSym ∧ r.infState = .sym) := by
  cases h with
  | blkFixed final => exact .inr (.inl ⟨rfl, rfl, rfl⟩)
  | tables hi => exact .inr (.inr ⟨hi, rfl⟩)
  | zhdr | blkStored | blkDynamic | storedHdr | storedByte | dynHdr | lengths | lit | eob | length | distance
  | matchByte => exact .inl ⟨rfl, rfl⟩

end Sys2Proof.Machine

open Sys2Proof.Machine

/-- Settles O55: a row or a whole match takes bits of the stream, unless the row copies a byte of a match. -/
theorem everyStepMakesProgress : Obligations.EveryStepMakesProgress := by
  intro s t hinput hd hstep hne
  have hin := hinput.inside (by rw [hd]; decide)
  rcases coreStep_cases hstep with hr | ⟨i, k, out, r, hrow⟩ | ⟨hsym, n, len, dist, hmatch⟩
  · exact absurd hr.1 hne
  · obtain ⟨_, hmove, hstay⟩ := hrow.ipos hin
    rw [hrow.ipos_next]
    by_cases hst : s.inf.infState = .matchByte
    · have hlen := hrow.move.of_matchByte (hst ▸ hrow.fetches.runs)
      refine .inr ⟨hst, hstay hst, ?_⟩
      rw [hrow.downstream.inf_eq]
      exact hlen
    · exact .inl ⟨hst, hmove hst⟩
  · exact .inl ⟨by rw [hsym]; decide, (hmatch.ipos hin).2⟩

/-- Settles O56: of the rows only a fixed block's header and the last code length write the tables, and a match never does. -/
theorem codeTablesChangeAtTwoPoints : Obligations.CodeTablesChangeAtTwoPoints := by
  intro s t hstep hne hchange
  rcases coreStep_cases hstep with hr | ⟨i, k, out, r, hrow⟩ | ⟨_, n, len, dist, hmatch⟩
  · exact absurd hr.1 hne
  · rw [hrow.downstream.inf_eq] at hchange ⊢
    have hruns := hrow.fetches.runs
    rcases hrow.move.tables_cases with ⟨hll, hdl⟩ | ⟨hi, hb, hs⟩ | ⟨hi, hs⟩
    · exact absurd hchange (not_or.2 ⟨not_not.2 hll, not_not.2 hdl⟩)
    · rw [hi] at hruns
      exact .inl ⟨(Option.some.inj hruns).symm, hb, hs⟩
    · rw [hi] at hruns
      exact .inr ⟨(Option.some.inj hruns).symm, hs⟩
  · rw [hmatch.state] at hchange
    exact absurd hchange (not_or.2 ⟨not_not.2 rfl, not_not.2 rfl⟩)
end

section
/-! SUPPORT. What no row of the stream writes (R28, R38): the host's registers, and the status registers but by an error or by a
row presented. -/

namespace Sys2Proof.Machine

/-- `t` has the host's registers and memory of `s` (R38), and either the same status or a row more presented (R223, R297). -/
structure KeepsHostSide (s t : State) : Prop where
  pix : t.pix = s.pix
  pal : t.mem.pal = s.mem.pal
  params : t.params = s.params
  env : t.env = s.env
  status : (t.drv = s.drv ∧ t.rout = s.rout)
    ∨ ∃ r, t.drv = { s.drv with rowPending := true, rowcnt := s.drv.rowcnt + 1 } ∧ t.rout = some r

theorem rowReconstructed_pal (b : Byte) (s : State) : (rowReconstructed b s).mem.pal = s.mem.pal := by
  simp [rowReconstructed, bytePlaced]

theorem Emitted.keepsHostSide {b : Byte} {s t : State} (h : Emitted b s t) : KeepsHostSide s t := by
  cases h with
  | tag => exact ⟨rfl, rfl, rfl, rfl, .inl ⟨rfl, rfl⟩⟩
  | midRow => exact ⟨rfl, by simp [bytePlaced], rfl, rfl, .inl ⟨rfl, rfl⟩⟩
  | lastByte hp hx r => exact ⟨rfl, rowReconstructed_pal b s, rfl, rfl, .inr ⟨r, rfl, rfl⟩⟩

theorem Downstream.keepsHostSide {out : Option Byte} {s t : State} {r : Inf} (h : Downstream out (s.setInf r) t) :
    KeepsHostSide s t := by
  cases out with
  | none => cases h; exact ⟨rfl, rfl, rfl, rfl, .inl ⟨rfl, rfl⟩⟩
  | some b =>
    obtain ⟨hpix, hpal, hparams, henv, hstatus⟩ := Emitted.keepsHostSide h
    exact ⟨hpix, hpal, hparams, henv, hstatus⟩

/-- A row of the stream raises, or keeps the host's side. -/
theorem exec_fromStream_keeps {i : Instr} {s t : State} (hi : i.fromStream = true) (h : exec i s = .next t) :
    Raised s t ∨ KeepsHostSide s t := by
  rcases exec_fromStream hi h with (hr | ⟨out, r, _, hdown⟩) | ⟨_, hr | ⟨f, rfl⟩⟩
  · exact .inl hr
  · exact .inr hdown.keepsHostSide
  · exact .inl hr
  · exact .inr ⟨rfl, rfl, rfl, rfl, .inl ⟨rfl, rfl⟩⟩

end Sys2Proof.Machine

open Sys2Proof Sys2Proof.Machine

/-- Settles O50: with a converted header a row of the stream takes the trap of R326, or keeps the host's side. -/
theorem streamCannotWriteConfiguration : Obligations.StreamCannotWriteConfiguration := by
  intro i s t hi hconv h
  rcases exec_fromStream_keeps hi h with ⟨_, htrap⟩ | ⟨hpix, hpal, hparams, henv, hstatus⟩
  · obtain ⟨c, _, rfl⟩ := htrap hconv
    exact ⟨rfl, rfl, rfl, rfl, rfl, rfl, rfl, rfl, rfl, rfl, rfl, rfl, .inr ⟨rfl, rfl, rfl, rfl, rfl⟩⟩
  · rcases hstatus with ⟨hd, hr⟩ | ⟨r, hd, hr⟩
    · exact ⟨hpix, hpal, by simp [hd, hr, hparams, henv]⟩
    · exact ⟨hpix, hpal, by simp [hd, hr, hparams, henv]⟩
end

section
/-! SUPPORT. The CFG port (R32, R294, R295): which writes do anything, what a read answers after one, and the obligations about
reads and writes. -/

namespace Sys2Proof.Machine

/-! ### The port -/

theorem envAct_cfgWrite {off : BitVec 11} (data : BitVec 32) (s : State) (ha : off.toNat % 4 = 0) (h0 : off ≠ 0) :
    envAct (.cfgWrite off data) s = .next (cfgStore off.toNat data s) := by
  simp only [envAct, cfgWrite, ha, h0, ne_eq, not_true_eq_false, if_false]

theorem envAct_cfgRead {off : BitVec 11} (s : State) (ha : off.toNat % 4 = 0) :
    envAct (.cfgRead off) s = .next (s.setEnv { s.env with rdata := some (cfgValue s off.toNat) }) := by
  simp only [envAct, cfgRead, ha, ne_eq, not_true_eq_false, if_false]

/-! ### The write windows (R294) -/

theorem writeHeader_open {s : State} (h : s.drv.dstate = .uninit) (d : Drv) : writeHeader s d = s.setDrv d := if_pos h

theorem writeHeader_closed {s : State} (h : s.drv.dstate ≠ .uninit) (d : Drv) : writeHeader s d = s := if_neg h

theorem beforeStart_iff (d : DState) : beforeStart d = true ↔ d = .uninit ∨ d = .headerReady := by
  simp [beforeStart]

theorem writePix_open {s : State} (h : beforeStart s.drv.dstate = true) (p : Pix) : writePix s p = s.setPix p := if_pos h

theorem writePix_closed {s : State} (h : ¬ beforeStart s.drv.dstate = true) (p : Pix) : writePix s p = s := if_neg h

theorem writePal_closed {s : State} (h : ¬ beforeStart s.drv.dstate = true) (i : Nat) (v : BitVec 24) :
    writePal i v s = s := if_neg h

/-- The header registers are closed outside UNINIT. -/
theorem cfgStore_header_closed {s : State} {off : Nat} (data : BitVec 32) (hd : s.drv.dstate ≠ .uninit)
    (hlo : 0x014 ≤ off) (hhi : off ≤ 0x024) : cfgStore off data s = s := by
  unfold cfgStore
  rw [if_neg (by omega)]
  split
  case h_1 => omega
  case h_2 | h_3 | h_4 | h_5 | h_6 => exact writeHeader_closed hd _
  case h_7 | h_8 | h_9 | h_10 | h_11 | h_12 | h_13 => omega
  case h_14 => rfl

/-- Every register is closed once decoding has started. -/
theorem cfgStore_closed {s : State} (off : Nat) (data : BitVec 32) (hu : s.drv.dstate ≠ .uninit)
    (hr : s.drv.dstate ≠ .headerReady) : cfgStore off data s = s := by
  have hb : ¬ beforeStart s.drv.dstate = true := fun h => ((beforeStart_iff _).1 h).elim hu hr
  unfold cfgStore
  split
  · exact writePal_closed hb _ _
  split
  case h_1 => rfl
  case h_2 | h_3 | h_4 | h_5 | h_6 => exact writeHeader_closed hu _
  case h_7 | h_8 | h_9 | h_10 | h_11 | h_12 | h_13 => exact writePix_closed hb _
  case h_14 => rfl

/-- The other offsets are no writable register. -/
theorem cfgStore_unwritable {off : Nat} (data : BitVec 32) (s : State)
    (h : off < 0x010 ∨ (0x040 < off ∧ off < 0x400)) : cfgStore off data s = s := by
  unfold cfgStore
  rw [if_neg (by omega)]
  split
  case h_14 => rfl
  all_goals omega

/-! ### What a write leaves -/

/-- What no CFG write touches (R294, R38). -/
structure CfgFrame (s t : State) : Prop where
  inf : t.inf = s.inf
  flt : t.flt = s.flt
  win : t.mem.win = s.mem.win
  row0 : t.mem.row0 = s.mem.row0
  row1 : t.mem.row1 = s.mem.row1
  rout : t.rout = s.rout
  env : t.env = s.env
  params : t.params = s.params
  dstate : t.drv.dstate = s.drv.dstate

theorem CfgFrame.refl (s : State) : CfgFrame s s := ⟨rfl, rfl, rfl, rfl, rfl, rfl, rfl, rfl, rfl⟩

theorem cfgStore_frame (off : Nat) (data : BitVec 32) (s : State) : CfgFrame s (cfgStore off data s) := by
  have hopen : ∀ (p : Prop) [Decidable p] (u : State), CfgFrame s u → CfgFrame s (if p then u else s) := by
    intro p _ u hu
    split
    · exact hu
    · exact .refl s
  unfold cfgStore
  split
  · exact hopen _ _ ⟨rfl, rfl, rfl, rfl, rfl, rfl, rfl, rfl, rfl⟩
  split
  case h_14 => exact .refl s
  all_goals exact hopen _ _ ⟨rfl, rfl, rfl, rfl, rfl, rfl, rfl, rfl, rfl⟩

/-! ### Reading after a write -/

theorem palCountOf_toNat (data : BitVec 32) : (palCountOf data).toNat = min data.toNat 256 := by
  unfold palCountOf
  split
  · rw [min_eq_right (by omega)]; rfl
  · rw [BitVec.toNat_setWidth]; omega

theorem toNat_ofNat_32 {n : Nat} (hn : n < 2 ^ 32) : (BitVec.ofNat 32 n).toNat = n :=
  (BitVec.toNat_ofNat n 32).trans (Nat.mod_eq_of_lt hn)

theorem toNat_ofNat_bit_zero (x : BitVec 32) : (BitVec.ofNat 32 (bitNat (x.getLsbD 0))).toNat = x.toNat % 2 := by
  rw [BitVec.getLsbD, Nat.testBit_zero]
  rcases Nat.mod_two_eq_zero_or_one x.toNat with h | h <;> rw [h] <;> rfl

/-- The bits that a register keeps of a written word (R24, R29, R30, R32). -/
def cfgStoredBits (off : BitVec 11) (data : BitVec 32) : Nat :=
  if off = 0x010 ∨ off = 0x02C then data.toNat % 2
  else if off = 0x01C ∨ off = 0x020 ∨ off = 0x024 ∨ off = 0x030 then data.toNat % 256
  else if off = 0x028 then min data.toNat 256
  else if off = 0x034 ∨ off = 0x038 ∨ off = 0x03C ∨ off = 0x040 then data.toNat % 65536
  else if 0x400 ≤ off.toNat then data.toNat % 2 ^ 24
  else data.toNat

/-- The header registers, written in UNINIT. -/
theorem cfgValue_cfgStore_header {off : BitVec 11} (data : BitVec 32) {s : State} (hd : s.drv.dstate = .uninit)
    (hoff : off.toNat = 0x014 ∨ off.toNat = 0x018 ∨ off.toNat = 0x01C ∨ off.toNat = 0x020 ∨ off.toNat = 0x024) :
    (cfgValue (cfgStore off.toNat data s) off.toNat).toNat = cfgStoredBits off data := by
  have hw8 : ((data.setWidth 8).setWidth 32).toNat = data.toNat % 256 := by
    rw [BitVec.toNat_setWidth_of_le (by decide), BitVec.toNat_setWidth]
  rcases hoff with h | h | h | h | h
  · obtain rfl : off = 0x014 := BitVec.eq_of_toNat_eq h
    exact congrArg (fun t => (cfgValue t 0x014).toNat) (writeHeader_open hd _)
  · obtain rfl : off = 0x018 := BitVec.eq_of_toNat_eq h
    exact congrArg (fun t => (cfgValue t 0x018).toNat) (writeHeader_open hd _)
  · obtain rfl : off = 0x01C := BitVec.eq_of_toNat_eq h
    exact (congrArg (fun t => (cfgValue t 0x01C).toNat) (writeHeader_open hd _)).trans hw8
  · obtain rfl : off = 0x020 := BitVec.eq_of_toNat_eq h
    exact (congrArg (fun t => (cfgValue t 0x020).toNat) (writeHeader_open hd _)).trans hw8
  · obtain rfl : off = 0x024 := BitVec.eq_of_toNat_eq h
    exact (congrArg (fun t => (cfgValue t 0x024).toNat) (writeHeader_open hd _)).trans hw8

/-- The PIX registers, written before START. -/
theorem cfgValue_cfgStore_pix {off : BitVec 11} (data : BitVec 32) {s : State} (hb : beforeStart s.drv.dstate = true)
    (hoff : off.toNat = 0x028 ∨ off.toNat = 0x02C ∨ off.toNat = 0x030 ∨ off.toNat = 0x034 ∨ off.toNat = 0x038
      ∨ off.toNat = 0x03C ∨ off.toNat = 0x040) :
    (cfgValue (cfgStore off.toNat data s) off.toNat).toNat = cfgStoredBits off data := by
  have hw16 : ((data.setWidth 16).setWidth 32).toNat = data.toNat % 65536 := by
    rw [BitVec.toNat_setWidth_of_le (by decide), BitVec.toNat_setWidth]
  rcases hoff with h | h | h | h | h | h | h
  · obtain rfl : off = 0x028 := BitVec.eq_of_toNat_eq h
    refine (congrArg (fun t => (cfgValue t 0x028).toNat) (writePix_open hb _)).trans ?_
    exact (BitVec.toNat_setWidth_of_le (b := palCountOf data) (by decide)).trans (palCountOf_toNat data)
  · obtain rfl : off = 0x02C := BitVec.eq_of_toNat_eq h
    exact (congrArg (fun t => (cfgValue t 0x02C).toNat) (writePix_open hb _)).trans (toNat_ofNat_bit_zero data)
  · obtain rfl : off = 0x030 := BitVec.eq_of_toNat_eq h
    refine (congrArg (fun t => (cfgValue t 0x030).toNat) (writePix_open hb _)).trans ?_
    exact (BitVec.toNat_setWidth_of_le (b := data.setWidth 8) (by decide)).trans (BitVec.toNat_setWidth 8 data)
  · obtain rfl : off = 0x034 := BitVec.eq_of_toNat_eq h
    exact (congrArg (fun t => (cfgValue t 0x034).toNat) (writePix_open hb _)).trans hw16
  · obtain rfl : off = 0x038 := BitVec.eq_of_toNat_eq h
    exact (congrArg (fun t => (cfgValue t 0x038).toNat) (writePix_open hb _)).trans hw16
  · obtain rfl : off = 0x03C := BitVec.eq_of_toNat_eq h
    exact (congrArg (fun t => (cfgValue t 0x03C).toNat) (writePix_open hb _)).trans hw16
  · obtain rfl : off = 0x040 := BitVec.eq_of_toNat_eq h
    exact (congrArg (fun t => (cfgValue t 0x040).toNat) (writePix_open hb _)).trans hw16

theorem cfgValue_cfgStore_ctrl {off : BitVec 11} (data : BitVec 32) {s : State} (hb : beforeStart s.drv.dstate = true)
    (h : off.toNat = 0x010) : (cfgValue (cfgStore off.toNat data s) off.toNat).toNat = cfgStoredBits off data := by
  obtain rfl : off = 0x010 := BitVec.eq_of_toNat_eq h
  exact (congrArg (fun t => (cfgValue t 0x010).toNat) (if_pos hb)).trans (toNat_ofNat_bit_zero data)

theorem cfgValue_pal {off : Nat} (s : State) (h : 0x400 ≤ off) :
    (cfgValue s off).toNat = (s.mem.pal.read ((off - 0x400) / 4)).toNat := by
  unfold cfgValue
  rw [if_pos h, BitVec.toNat_setWidth_of_le (by decide)]

theorem cfgValue_cfgStore_pal {off : BitVec 11} (data : BitVec 32) {s : State} (hb : beforeStart s.drv.dstate = true)
    (h : 0x400 ≤ off.toNat) : (cfgValue (cfgStore off.toNat data s) off.toNat).toNat = cfgStoredBits off data := by
  have hne : ∀ k : BitVec 11, k.toNat < 0x400 → off ≠ k := fun k hk hoff => absurd (hoff ▸ h) (not_le.2 hk)
  have hbits : cfgStoredBits off data = data.toNat % 2 ^ 24 := by
    simp only [cfgStoredBits, h, if_true, hne 0x010 (by decide), hne 0x01C (by decide), hne 0x020 (by decide),
      hne 0x024 (by decide), hne 0x028 (by decide), hne 0x02C (by decide), hne 0x030 (by decide), hne 0x034 (by decide),
      hne 0x038 (by decide), hne 0x03C (by decide), hne 0x040 (by decide), or_self, if_false]
  have hstore : cfgStore off.toNat data s = s.setMem
      { s.mem with pal := s.mem.pal.write ((off.toNat - 0x400) / 4) (data.setWidth 24) } := by
    unfold cfgStore
    rw [if_pos h]
    exact if_pos hb
  rw [hstore, cfgValue_pal _ h, hbits, State.setMem_mem, Cells.read_write_same, BitVec.toNat_setWidth]

/-- A register that is not written is read as before. -/
theorem cfgValue_cfgStore_of_ne {off o : Nat} (data : BitVec 32) (s : State) (ha : off % 4 = 0) (hb : o % 4 = 0)
    (hne : o ≠ off) : cfgValue (cfgStore off data s) o = cfgValue s o := by
  have hopen : ∀ (p : Prop) [Decidable p] (u : State), cfgValue u o = cfgValue s o →
      cfgValue (if p then u else s) o = cfgValue s o := by
    intro p _ u hu
    split
    · exact hu
    · rfl
  unfold cfgStore
  split
  · refine hopen _ _ ?_
    unfold cfgValue
    split
    · rw [State.setMem_mem, Cells.read_write_ne _ _ (by omega)]
    · split <;> rfl
  split
  case h_14 => rfl
  all_goals
    refine hopen _ _ ?_
    unfold cfgValue
    split
    · rfl
    · split <;> first | rfl | exact absurd rfl hne

/-! ### The numbers read (R13, R26, R32, R320, R321) -/

theorem DState.code_lt (x : DState) : x.code < 2 ^ 32 := by cases x <;> decide
theorem ErrCode.code_lt (x : ErrCode) : x.code < 2 ^ 32 := by cases x <;> decide
theorem Cause.code_lt (x : Cause) : x.code < 2 ^ 32 := by cases x <;> decide
theorem InfState.code_lt (x : InfState) : x.code < 16 := by cases x <;> decide

theorem bitNat_lt_word (b : Bool) : bitNat b < 2 ^ 32 := (bitNat_lt b).trans (by decide)

theorem getLsbD_of_toNat {w k : Nat} {x : BitVec w} {b : Bool} (h : x.toNat / 2 ^ k % 2 = bitNat b) :
    x.getLsbD k = b := by
  rw [BitVec.getLsbD, Nat.testBit_eq_decide_div_mod_eq, h]
  cases b <;> rfl

/-- The fields of the FLAGS read-out (R32). -/
theorem flagBits_fields (s : State) :
    s.flagBits.getLsbD 0 = s.inf.bfinal ∧ s.flagBits.getLsbD 1 = s.drv.stopped
      ∧ s.flagBits.getLsbD 2 = s.drv.rowPending ∧ s.flagBits.toNat / 8 % 4 = s.inf.btype.toNat
      ∧ s.flagBits.toNat / 32 % 8 = 0 ∧ s.flagBits.toNat / 256 % 16 = s.inf.infState.code
      ∧ s.flagBits.toNat / 4096 = s.flt.pass.toNat := by
  have hf := bitNat_lt s.inf.bfinal
  have hs := bitNat_lt s.drv.stopped
  have hr := bitNat_lt s.drv.rowPending
  have hb := s.inf.btype.isLt
  have hi := InfState.code_lt s.inf.infState
  have hp := s.flt.pass.isLt
  have hsum : s.flagBits.toNat = bitNat s.inf.bfinal + 2 * bitNat s.drv.stopped + 4 * bitNat s.drv.rowPending
      + 8 * s.inf.btype.toNat + 256 * s.inf.infState.code + 4096 * s.flt.pass.toNat :=
    toNat_ofNat_32 (by omega)
  refine ⟨getLsbD_of_toNat ?_, getLsbD_of_toNat ?_, getLsbD_of_toNat ?_, ?_, ?_, ?_, ?_⟩ <;> rw [hsum] <;> omega

theorem cfgValue_flags {s : State} (h : s.drv.dstate ≠ .error) : cfgValue s 0x048 = s.flagBits :=
  State.flags_of_ne_error h

theorem cfgValue_unmapped {off : Nat} (s : State) (hlo : 0x054 < off) (hhi : off < 0x400) : cfgValue s off = 0 := by
  unfold cfgValue
  rw [if_neg (by omega)]
  split
  case h_22 => rfl
  all_goals omega

end Sys2Proof.Machine

open Sys2Proof Sys2Proof.Machine

/-- Settles O42: the header's window, every register's window, and the offsets that are no writable register. -/
theorem writesOutsideTheirWindowAreIgnored : Obligations.WritesOutsideTheirWindowAreIgnored := by
  intro off data s ha h0
  rw [envAct_cfgWrite data s ha h0]
  exact ⟨fun hu hlo hhi => by rw [cfgStore_header_closed data hu hlo hhi],
    fun hu hr => by rw [cfgStore_closed _ data hu hr], fun h => by rw [cfgStore_unwritable data s h]⟩

/-- Settles O44: the value of each register at its offset. -/
theorem readsHaveNoSideEffect : Obligations.ReadsHaveNoSideEffect := by
  intro off s ha
  refine ⟨cfgValue s off.toNat, envAct_cfgRead s ha, rfl, ?_, ?_, ?_, ?_, ?_, ?_, ?_, ?_, ?_, ?_, ?_, ?_, ?_, ?_, ?_, ?_,
    ?_, ?_, ?_, ?_, ?_, ?_, fun hlo hhi => cfgValue_unmapped s hlo hhi, fun h => cfgValue_pal s h⟩ <;> rintro rfl
  · rfl
  · exact toNat_ofNat_32 (DState.code_lt _)
  · exact toNat_ofNat_32 (ErrCode.code_lt _)
  · exact toNat_ofNat_32 (ErrCode.code_lt _)
  · exact toNat_ofNat_32 (bitNat_lt_word _)
  · rfl
  · rfl
  · exact BitVec.toNat_setWidth_of_le (b := s.drv.bitdepth) (by decide)
  · exact BitVec.toNat_setWidth_of_le (b := s.drv.colortype) (by decide)
  · exact BitVec.toNat_setWidth_of_le (b := s.drv.interlace) (by decide)
  · exact BitVec.toNat_setWidth_of_le (b := s.pix.palCount) (by decide)
  · exact toNat_ofNat_32 (bitNat_lt_word _)
  · exact BitVec.toNat_setWidth_of_le (b := s.pix.trnsIndex) (by decide)
  · exact BitVec.toNat_setWidth_of_le (b := s.pix.trnsGray) (by decide)
  · exact BitVec.toNat_setWidth_of_le (b := s.pix.trnsR) (by decide)
  · exact BitVec.toNat_setWidth_of_le (b := s.pix.trnsG) (by decide)
  · exact BitVec.toNat_setWidth_of_le (b := s.pix.trnsB) (by decide)
  · exact toNat_ofNat_32 (Cause.code_lt _)
  · intro hne
    rw [show cfgValue s (0x048 : BitVec 11).toNat = s.flagBits from cfgValue_flags hne]
    exact flagBits_fields s
  · intro _
    exact (BitVec.extractLsb'_toNat ..).trans (by simp)
  · intro _
    refine (BitVec.extractLsb'_toNat ..).trans ?_
    rw [Nat.shiftRight_eq_div_pow]
    have := s.inf.ipos.isLt
    omega
  · rfl

/-- Settles O43, register by register: CTRL, the header in UNINIT, the PIX registers and the palette before START. -/
theorem writesInsideTheirWindowAreStored : Obligations.WritesInsideTheirWindowAreStored := by
  intro off data s ha hwin
  have h0 : off ≠ 0 := by
    rintro rfl
    rcases hwin with ⟨_, hlo, _⟩ | ⟨_, h | ⟨hlo, _⟩ | hlo⟩
    · exact absurd hlo (by decide)
    · exact absurd h (by decide)
    · exact absurd hlo (by decide)
    · exact absurd hlo (by decide)
  have hvalue : (cfgValue (cfgStore off.toNat data s) off.toNat).toNat = cfgStoredBits off data := by
    rcases hwin with ⟨hd, hlo, hhi⟩ | ⟨hd, h | ⟨hlo, hhi⟩ | hlo⟩
    · by_cases h10 : off.toNat = 0x010
      · exact cfgValue_cfgStore_ctrl data ((beforeStart_iff _).2 (.inl hd)) h10
      · exact cfgValue_cfgStore_header data hd (by omega)
    · exact cfgValue_cfgStore_ctrl data ((beforeStart_iff _).2 hd) (congrArg BitVec.toNat h)
    · exact cfgValue_cfgStore_pix data ((beforeStart_iff _).2 hd) (by omega)
    · exact cfgValue_cfgStore_pal data ((beforeStart_iff _).2 hd) hlo
  obtain ⟨hinf, hflt, hwinm, h0m, h1m, hrout, henv, hparams, _⟩ := cfgStore_frame off.toNat data s
  refine ⟨cfgStore off.toNat data s, _, envAct_cfgWrite data s ha h0, envAct_cfgRead _ ha, hvalue, fun o ho hne => ?_,
    hinf, hflt, hwinm, h0m, h1m, hrout, henv, hparams⟩
  refine ⟨cfgValue s o.toNat, envAct_cfgRead s ho, ?_⟩
  rw [envAct_cfgRead _ ho, cfgValue_cfgStore_of_ne data s ha ho fun h => hne (BitVec.eq_of_toNat_eq h)]
end

section
/-! SUPPORT. The invariant but for the input accounting, under the updates of registers and memories that steps are made of. -/

namespace Sys2Proof.Machine

/-! ### The parts of the invariant -/

/-- Every part of `Inv` but the input accounting: nothing of it is about the environment's side. -/
structure RegInv (s : State) : Prop where
  memory : s.mem.wf = true
  bounds : s.mem.inBounds s.params = true
  status : StatusInv s
  window : WindowInv s
  element : ElementInv s
  row : RowInv s
  palette : PaletteInv s

theorem Inv.regs {s : State} (h : Inv s) : RegInv s :=
  ⟨h.memory, h.bounds, h.status, h.window, h.element, h.row, h.palette⟩

theorem RegInv.inv {s : State} (h : RegInv s) (hi : InputInv s) : Inv s :=
  ⟨h.memory, h.bounds, hi, h.status, h.window, h.element, h.row, h.palette⟩

theorem RegInv.of_env {s : State} (h : RegInv s) (e : Env) (k : Nat) : RegInv { s with env := e, freeCtr := k } :=
  ⟨h.memory, h.bounds, { h.status with }, { h.window with }, { h.element with }, { h.row with }, h.palette⟩

theorem RegInv.setEnv {s : State} (h : RegInv s) (e : Env) : RegInv (s.setEnv e) := h.of_env e s.freeCtr

theorem RegInv.setInf {s : State} {r : Inf} (h : RegInv s) (hw : WindowInv (s.setInf r)) (he : ElementInv (s.setInf r)) :
    RegInv (s.setInf r) :=
  ⟨h.memory, h.bounds, { h.status with }, hw, he, { h.row with }, h.palette⟩

theorem RegInv.setFlt {s : State} {r : Flt} (h : RegInv s) (hr : RowInv (s.setFlt r)) : RegInv (s.setFlt r) :=
  ⟨h.memory, h.bounds, { h.status with }, { h.window with }, { h.element with }, hr, h.palette⟩

theorem RegInv.setMem {s : State} {m : Memory} (h : RegInv s) (hm : m.wf = true) (hb : m.inBounds s.params = true) :
    RegInv (s.setMem m) :=
  ⟨hm, hb, { h.status with }, { h.window with }, { h.element with }, { h.row with }, h.palette⟩

theorem RegInv.setPix {s : State} {p : Pix} (h : RegInv s) (hp : p.palCount.toNat ≤ 256) : RegInv (s.setPix p) :=
  ⟨h.memory, h.bounds, { h.status with }, { h.window with }, { h.element with }, { h.row with }, hp⟩

/-- Only a state that is in ERROR is free of the bounds on HIST and of what INF_STATE announces. -/
theorem RegInv.setDrv {s : State} {d : Drv} (h : RegInv s) (hd : d.dstate ≠ .error → s.drv.dstate ≠ .error)
    (hs : StatusInv (s.setDrv d)) (hr : RowInv (s.setDrv d)) : RegInv (s.setDrv d) :=
  ⟨h.memory, h.bounds, hs,
    ⟨h.window.wpos, h.window.histWidth, fun hne => h.window.hist (hd hne)⟩,
    ⟨fun hne => h.element.stored (hd hne), fun hne => h.element.lengths (hd hne), fun hne => h.element.copy (hd hne)⟩,
    hr, h.palette⟩

theorem wsize_pos (p : Params) : 1 ≤ p.wsize := Nat.one_le_two_pow

theorem wsize_le (p : Params) : p.wsize ≤ 32768 :=
  Nat.pow_le_pow_right (by decide) (show 8 + p.wsizeExp.val ≤ 15 by omega)

theorem StatusInv.not_stopped {s : State} (h : StatusInv s) (hd : s.drv.dstate ≠ .done) : s.drv.stopped = false :=
  Bool.eq_false_iff.2 fun hs => hd (h.stoppedDone hs)

theorem StatusInv.not_pending {s : State} (h : StatusInv s) (hd : s.drv.dstate ≠ .decoding) :
    s.drv.rowPending = false :=
  Bool.eq_false_iff.2 fun hs => hd (h.pendingDecoding hs)

/-! ### Traps (R326) -/

/-- The two ways to raise: a cause of the stream, or Unsupported(HEADER). -/
def RaisesWith (e : ErrCode) (c : Cause) : Prop :=
  (e = .decodeError ∧ c.ofStream = true) ∨ (e = .unsupportedFeature ∧ c = .header)

theorem trapEntry_status {s : State} {e : ErrCode} {c : Cause} (hs : s.drv.stopped = false) (h : RaisesWith e c) :
    StatusInv (trapEntry e c s) := by
  have hstop : (trapEntry e c s).drv.stopped = true → (trapEntry e c s).drv.dstate = .done := by
    intro ht; rw [trapEntry_stopped, hs] at ht; cases ht
  rcases h with ⟨rfl, hc⟩ | ⟨rfl, rfl⟩
  · obtain ⟨hno, hhd⟩ := (Cause.ofStream_iff c).1 hc
    exact ⟨rfl, nofun, hstop, by simp, by simp [hno], by simp [hhd], by simp⟩
  · exact ⟨rfl, nofun, hstop, by simp, by simp, by simp, by simp⟩

/-- A trap frees registers and memories within their widths, and the invariant asks no more of them in ERROR. -/
theorem trapEntry_regInv {s : State} {e : ErrCode} {c : Cause} (h : RegInv s) (hs : s.drv.stopped = false)
    (hc : RaisesWith e c) : RegInv (trapEntry e c s) where
  memory := freeMem_wf _ _ _ h.memory
  bounds := freeMem_inBounds _ _ _ h.bounds
  status := trapEntry_status hs hc
  window := ⟨Nat.mod_lt _ (wsize_pos _), Nat.mod_lt _ (Nat.mul_pos (by decide) (wsize_pos _)), fun h => absurd rfl h⟩
  element := ⟨fun h => absurd rfl h, fun h => absurd rfl h, fun h => absurd rfl h⟩
  row :=
    { header := by simp
      rxWidth := Nat.lt_succ_iff.1 (Nat.mod_lt _ (Nat.succ_pos _))
      pstrideWidth := Nat.lt_succ_iff.1 (Nat.mod_lt _ (Nat.succ_pos _))
      pass := nofun
      stride := nofun
      row := nofun
      room := nofun
      filter := nofun }
  palette := h.palette

/-! ### What INF_STATE announces -/

/-- `ElementInv` outside ERROR: a condition on INF alone. -/
structure Inf.ElementOk (r : Inf) : Prop where
  stored : r.infState = .storedByte → 1 ≤ r.storedRem.toNat
  lengths : r.infState = .clSym →
    257 ≤ r.nlen.toNat ∧ r.nlen.toNat ≤ 286 ∧ 1 ≤ r.ndist.toNat ∧ r.ndist.toNat ≤ 30 ∧ r.lidx.toNat < r.lensTotal
  copy : r.infState = .matchByte →
    1 ≤ r.matchLen.toNat ∧ r.matchLen.toNat ≤ 258 ∧ 1 ≤ r.matchDist.toNat ∧ r.matchDist.toNat ≤ r.hist

theorem elementInv_iff (s : State) : ElementInv s ↔ (s.drv.dstate ≠ .error → s.inf.ElementOk) :=
  ⟨fun h hd => ⟨h.stored hd, h.lengths hd, h.copy hd⟩,
    fun h => ⟨fun hd => (h hd).stored, fun hd => (h hd).lengths, fun hd => (h hd).copy⟩⟩

/-- The kinds of element that `ElementInv` asks something of. -/
def InfState.announces (k : InfState) : Bool := k == .storedByte || k == .clSym || k == .matchByte

theorem Inf.elementOk_of_infState {r : Inf} (hr : r.infState.announces = false) : r.ElementOk := by
  constructor <;> intro h <;> rw [h] at hr <;> cases hr

theorem Inf.afterBlock_announces (r : Inf) : r.afterBlock.announces = false := by
  unfold Inf.afterBlock
  split <;> rfl

theorem toNat_pos_of_ne_zero {w : Nat} {x : BitVec w} (h : x ≠ 0) : 1 ≤ x.toNat :=
  Nat.pos_of_ne_zero fun h0 => h (BitVec.eq_of_toNat_eq (by simpa using h0))

theorem storedHdr_elementOk {r : Inf} {len : Nat} (hlen : len < 2 ^ 16) {next : InfState}
    (hnext : next.announces = false) :
    Inf.ElementOk { r with storedRem := BitVec.ofNat 16 len, infState := if len = 0 then next else .storedByte } := by
  by_cases h0 : len = 0
  · exact Inf.elementOk_of_infState (by rw [if_pos h0]; exact hnext)
  · rw [if_neg h0]
    refine ⟨fun _ => ?_, nofun, nofun⟩
    rw [BitVec.toNat_ofNat, Nat.mod_eq_of_lt hlen]
    omega

theorem storedByte_elementOk {r : Inf} (hr : r.infState = .storedByte) {next : InfState}
    (hnext : next.announces = false) (p : BitVec 64) :
    Inf.ElementOk
      { r with ipos := p, storedRem := r.storedRem - 1, infState := if r.storedRem - 1 = 0 then next else r.infState } := by
  by_cases h0 : r.storedRem - 1 = 0
  · exact Inf.elementOk_of_infState (by rw [if_pos h0]; exact hnext)
  · rw [if_neg h0, hr]
    exact ⟨fun _ => toNat_pos_of_ne_zero h0, nofun, nofun⟩

theorem matchByte_elementOk {r : Inf} (hr : r.infState = .matchByte) (h : r.ElementOk) :
    Inf.ElementOk
      { r with matchLen := r.matchLen - 1, infState := if r.matchLen - 1 = 0 then .sym else r.infState } := by
  by_cases h0 : r.matchLen - 1 = 0
  · exact Inf.elementOk_of_infState (by rw [if_pos h0]; rfl)
  · rw [if_neg h0, hr]
    obtain ⟨hmin, hmax, hdist⟩ := h.copy hr
    have hsub : (r.matchLen - 1).toNat = r.matchLen.toNat - 1 := by bv_omega
    refine ⟨nofun, nofun, fun _ => ⟨toNat_pos_of_ne_zero h0, ?_, hdist⟩⟩
    rw [hsub]
    omega

theorem lengths_elementOk {r : Inf} {rep : Nat} {lens : Vector (BitVec 4) 316} {p : BitVec 64}
    (hr : r.infState = .clSym) (h : r.ElementOk) (hroom : rep = 1 ∨ r.lidx.toNat + rep ≤ r.lensTotal)
    (hmore : (r.lidx + BitVec.ofNat 9 rep).toNat ≠ r.lensTotal) :
    Inf.ElementOk { r with ipos := p, lens := lens, lidx := r.lidx + BitVec.ofNat 9 rep } := by
  obtain ⟨hn1, hn2, hd1, hd2, hl⟩ := h.lengths hr
  have htotal : r.lensTotal ≤ 316 := Nat.add_le_add hn2 hd2
  have hadd : (r.lidx + BitVec.ofNat 9 rep).toNat = r.lidx.toNat + rep := by
    rw [BitVec.toNat_add, BitVec.toNat_ofNat]
    omega
  constructor <;> intro hst <;> rw [hr] at hst <;> cases hst
  exact ⟨hn1, hn2, hd1, hd2, show (r.lidx + BitVec.ofNat 9 rep).toNat < r.lensTotal by omega⟩

theorem dynHdr_elementOk {r : Inf} {hlit hdist : Nat} {nc : BitVec 5} {cl : Vector (BitVec 3) 19}
    {lens : Vector (BitVec 4) 316} (h1 : hlit + 257 ≤ 286) (h2 : hdist + 1 ≤ 30) :
    Inf.ElementOk
      { r with
        nlen := BitVec.ofNat 9 (hlit + 257), ndist := BitVec.ofNat 6 (hdist + 1), ncode := nc, clLen := cl, lens := lens
        lidx := 0, infState := .clSym } := by
  refine ⟨nofun, fun _ => ?_, nofun⟩
  have h0 : (0 : BitVec 9).toNat = 0 := rfl
  simp only [Inf.lensTotal, BitVec.toNat_ofNat]
  omega

/-- A row keeps what INF_STATE announces: the row that is run is the one announced. -/
theorem RowMove.elementOk {s : State} {i : Instr} {out : Option Byte} {r : Inf} (h : RowMove s i out r)
    (hruns : runsIn i = some s.inf.infState) (he : s.inf.ElementOk) : r.ElementOk := by
  cases h with
  | zhdr | blkStored | blkFixed | blkDynamic | tables => exact Inf.elementOk_of_infState rfl
  | eob => exact Inf.elementOk_of_infState s.inf.afterBlock_announces
  | lit b => exact he
  | storedHdr len hlen hc => exact storedHdr_elementOk hlen s.inf.afterBlock_announces
  | storedByte b hc => exact storedByte_elementOk (Option.some.inj hruns).symm s.inf.afterBlock_announces _
  | dynHdr n hlit hdist hclen file hn hc h1 h2 => exact dynHdr_elementOk h1 h2
  | lengths hi n rep lens hc hroom hmore =>
    exact lengths_elementOk (r := s.inf) (Option.some.inj (hruns.symm.trans hi)) he hroom hmore
  | length hi _ n len hc =>
    have hsym : s.inf.infState = .sym := Option.some.inj (hruns.symm.trans hi)
    exact Inf.elementOk_of_infState (congrArg InfState.announces hsym)
  | distance hi => rw [hi] at hruns; cases hruns
  | matchByte => exact matchByte_elementOk (Option.some.inj hruns).symm he

theorem RowMove.window_eq {s : State} {i : Instr} {out : Option Byte} {r : Inf} (h : RowMove s i out r) :
    r.wpos = s.inf.wpos ∧ r.hist = s.inf.hist := by
  cases h <;> exact ⟨rfl, rfl⟩

theorem RegInv.advanced {s : State} (h : RegInv s) (n : Nat) : RegInv (advance n s) :=
  h.setInf { h.window with } { h.element with }

theorem RowMove.regInv {s : State} {i : Instr} {out : Option Byte} {r : Inf} (hm : RowMove s i out r)
    (hruns : runsIn i = some s.inf.infState) (h : RegInv s) : RegInv (s.setInf r) := by
  obtain ⟨hwpos, hhist⟩ := hm.window_eq
  refine h.setInf ⟨?_, ?_, ?_⟩ ((elementInv_iff _).2 fun hd => hm.elementOk hruns ((elementInv_iff s).1 h.element hd))
  · exact hwpos.trans_lt h.window.wpos
  · exact hhist.trans_lt h.window.histWidth
  · exact fun hd => hhist.trans_le (h.window.hist hd)

theorem WholeMatch.regInv {s t : State} {n len dist : Nat} (hm : WholeMatch s t n len dist) (h : RegInv s)
    (hd : s.drv.dstate ≠ .error) : RegInv t := by
  obtain ⟨_, _, hl1, hl2, hd1, hd2, rfl⟩ := hm
  have hhist := h.window.hist hd
  have hsize := wsize_le s.params
  refine h.setInf { h.window with } ((elementInv_iff _).2 fun _ => ⟨nofun, nofun, fun _ => ?_⟩)
  have hlen : (BitVec.ofNat 9 len).toNat = len := by rw [BitVec.toNat_ofNat]; omega
  have hdist : (BitVec.ofNat 16 dist).toNat = dist := by rw [BitVec.toNat_ofNat]; omega
  exact ⟨by rw [State.setInf_inf, hlen]; omega, by rw [State.setInf_inf, hlen]; exact hl2,
    by rw [State.setInf_inf, hdist]; exact hd1, by rw [State.setInf_inf, hdist]; exact hd2⟩

/-! ### Emitting a byte -/

/-- WPOS stays inside the window, so the byte does (R48), and HIST only grows, up to WSIZE. -/
theorem RegInv.pushWindow {s : State} (h : RegInv s) (hd : s.drv.dstate ≠ .error) (b : Byte) :
    RegInv (windowPush b s) := by
  obtain ⟨hwin, h0, h1, hp⟩ := (Memory.wf_iff _).1 h.memory
  obtain ⟨bwin, b0, b1, bp⟩ := (Memory.inBounds_iff _ _).1 h.bounds
  have hsize := wsize_pos s.params
  have hhist := h.window.hist hd
  have he := (elementInv_iff s).1 h.element hd
  have hmem := h.setMem (m := { s.mem with win := s.mem.win.write s.inf.wpos b })
    ((Memory.wf_iff _).2 ⟨Cells.wf_write _ _ _ hwin, h0, h1, hp⟩)
    ((Memory.inBounds_iff _ _).2 ⟨Cells.below_write b bwin h.window.wpos, b0, b1, bp⟩)
  refine hmem.setInf ⟨Nat.mod_lt _ hsize, ?_, fun _ => min_le_right _ _⟩ ?_
  · exact (min_le_right _ _).trans_lt (show s.params.wsize < 2 * s.params.wsize by omega)
  · refine (elementInv_iff _).2 fun _ => ⟨he.stored, he.lengths, fun hst => ?_⟩
    obtain ⟨hl1, hl2, hd1, hd2⟩ := he.copy hst
    exact ⟨hl1, hl2, hd1, le_min (hd2.trans (Nat.le_succ _)) (hd2.trans hhist)⟩

theorem RegInv.rowbuf_wf {s : State} (h : RegInv s) (b : Bool) : (s.mem.rowbuf b).wf = true :=
  Memory.wf_rowbuf b h.memory

theorem RegInv.rowbuf_below {s : State} (h : RegInv s) (b : Bool) : (s.mem.rowbuf b).below s.params.maxStride = true := by
  obtain ⟨_, b0, b1, _⟩ := (Memory.inBounds_iff _ _).1 h.bounds
  cases b
  · exact b0
  · exact b1

theorem Memory.inBounds_setRowbuf {p : Params} {m : Memory} {r : Cells 8} (b : Bool) (h : m.inBounds p = true)
    (hr : r.below p.maxStride = true) : (m.setRowbuf b r).inBounds p = true := by
  obtain ⟨bwin, b0, b1, bp⟩ := (Memory.inBounds_iff _ _).1 h
  cases b
  · exact (Memory.inBounds_iff _ _).2 ⟨bwin, hr, b1, bp⟩
  · exact (Memory.inBounds_iff _ _).2 ⟨bwin, b0, hr, bp⟩

theorem RegInv.setRowbuf {s : State} {r : Cells 8} (h : RegInv s) (b : Bool) (hwf : r.wf = true)
    (hb : r.below s.params.maxStride = true) : RegInv (s.setMem (s.mem.setRowbuf b r)) :=
  h.setMem (Memory.wf_setRowbuf b h.memory hwf) (Memory.inBounds_setRowbuf b h.bounds hb)

/-- The byte fits the row buffer (R49), so the current row stays canonical and inside it. -/
theorem RegInv.byteInRow {s : State} (h : RegInv s) {b : Byte} (hd : s.drv.dstate ≠ .error)
    (hx : s.flt.rx < s.params.maxStride) : RegInv ((windowPush b s).setCurRow (s.curRow.write s.flt.rx b)) :=
  (h.pushWindow hd b).setRowbuf _ (Cells.wf_write _ _ _ (h.rowbuf_wf _)) (Cells.below_write _ (h.rowbuf_below _) hx)

/-- Presenting a record keeps what does not depend on a completed row. -/
theorem presented_regInv {s : State} {f : Flt} {r : RowRecord} (h : RegInv s) (hd : s.drv.dstate = .decoding)
    (hr : RowInv (presented r (s.setFlt f))) : RegInv (presented r (s.setFlt f)) where
  memory := h.memory
  bounds := h.bounds
  status :=
    { pendingRecord := rfl
      pendingDecoding := fun _ => hd
      stoppedDone := h.status.stoppedDone
      errorCode := h.status.errorCode
      errorCause := h.status.errorCause
      headerCode := h.status.headerCode
      decodeCode := h.status.decodeCode }
  window := { h.window with }
  element := { h.element with }
  row := hr
  palette := h.palette

/-- Emitting a byte in mid-decode keeps the invariant: RX stays below the stride until the row is presented. -/
theorem Emitted.regInv {b : Byte} {s t : State} (he : Emitted b s t) (h : RegInv s) (hd : s.drv.dstate = .decoding)
    (hp : s.drv.rowPending = false) : RegInv t := by
  have hne : s.drv.dstate ≠ .error := by rw [hd]; decide
  have hstride := h.row.stride hd
  have hwidth := h.row.pstrideWidth
  cases he with
  | tag hph hb =>
    refine (h.pushWindow hne b).setFlt { h.row with rxWidth := Nat.zero_le _, room := fun _ _ _ => hstride, filter := ?_ }
    intro _ _
    simp only [State.setFlt_flt, BitVec.toNat_ofNat]
    omega
  | midRow hph hx =>
    have hroom := h.row.room hd hph hp
    refine (h.byteInRow hne (hroom.trans_le hwidth)).setFlt { h.row with rxWidth := ?_, room := fun _ _ _ => ?_ }
    · exact hroom.trans_le hwidth
    · exact lt_of_le_of_ne hroom hx
  | lastByte hph hx r =>
    have hroom := h.row.room hd hph hp
    have hbyte := h.byteInRow (b := b) hne (hroom.trans_le hwidth)
    have hrow := hbyte.setRowbuf s.flt.cursel
      (reconstruct_wf s.flt.ftype s.drv.fbpp s.flt.pstride s.prevRow _ (Cells.wf_write _ _ b (h.rowbuf_wf s.flt.cursel)))
      (reconstruct_below (Cells.below_write b (h.rowbuf_below s.flt.cursel) (hroom.trans_le hwidth)) hwidth)
    exact presented_regInv (f := { s.flt with rx := s.flt.rx + 1 }) hrow hd
      { h.row with rxWidth := hroom.trans_le hwidth, room := nofun }

end Sys2Proof.Machine
end

section
/-! SUPPORT. The invariant under the core's turn (R296, R33). -/

namespace Sys2Proof.Machine

theorem RegInv.converted {s : State} (h : RegInv s) (hd : s.drv.dstate = .decoding) : s.drv.converted = true :=
  (Bool.and_eq_true_iff.1 (h.row.header (.inr (.inl hd)))).1

theorem coreStep_regInv {s t : State} (h : RegInv s) (hd : s.drv.dstate = .decoding) (hp : s.drv.rowPending = false)
    (hstep : coreStep s = .next t) : RegInv t := by
  have hne : s.drv.dstate ≠ .error := by rw [hd]; decide
  rcases coreStep_cases hstep with ⟨_, htrap⟩ | ⟨i, k, out, r, hrow⟩ | ⟨_, n, len, dist, hmatch⟩
  · obtain ⟨c, hc, rfl⟩ := htrap (h.converted hd)
    exact trapEntry_regInv h (h.status.not_stopped (by rw [hd]; decide)) (.inl ⟨rfl, hc⟩)
  · have hmoved : RegInv (s.setInf r) := hrow.move.regInv hrow.fetches.runs (h.advanced k)
    have hdown := hrow.downstream
    cases out with
    | none => cases hdown; exact hmoved
    | some b => exact Emitted.regInv hdown hmoved hd hp
  · exact hmatch.regInv h hne

/-- A step of the core leaves the environment's side, and IPOS inside the stream and not behind where it was (R12). -/
theorem coreStep_input {s t : State} (hin : InsideStream s) (hconv : s.drv.converted = true)
    (hstep : coreStep s = .next t) :
    t.env = s.env ∧ t.params = s.params
      ∧ (t.drv.dstate ≠ .error → s.inf.ipos.toNat ≤ t.inf.ipos.toNat ∧ t.inf.ipos.toNat ≤ 8 * s.env.cin.length) := by
  rcases coreStep_cases hstep with ⟨_, htrap⟩ | ⟨i, k, out, r, hrow⟩ | ⟨_, n, len, dist, hmatch⟩
  · obtain ⟨c, _, rfl⟩ := htrap hconv
    exact ⟨rfl, rfl, fun hne => absurd rfl hne⟩
  · refine ⟨hrow.downstream.env_eq, hrow.downstream.params_eq, fun _ => ?_⟩
    obtain ⟨hle, hlt, heq⟩ := hrow.ipos hin
    rw [hrow.ipos_next]
    refine ⟨?_, hle⟩
    by_cases hst : s.inf.infState = .matchByte
    · rw [heq hst]
    · exact (hlt hst).le
  · obtain ⟨hle, hlt⟩ := hmatch.ipos hin
    have hstate := hmatch.state
    exact ⟨by rw [hstate]; rfl, by rw [hstate]; rfl, fun _ => ⟨hlt.le, hle⟩⟩

theorem divUp_eight_le {n k : Nat} (h : n ≤ 8 * k) : divUp n 8 ≤ k ∧ divUp n 8 ≤ n / 8 + 1 := by
  unfold divUp
  omega

/-- The pull restores the bounds on PULLED that hold where IPOS was before the step (R33). -/
theorem pull_inputInv {t : State} (hc : 8 * t.env.cin.length < 2 ^ 64) (hp : t.env.pulled ≤ t.env.cin.length)
    (hi : t.drv.dstate ≠ .error → t.inf.ipos.toNat ≤ 8 * t.env.cin.length
      ∧ t.env.pulled ≤ t.inf.ipos.toNat / 8 + t.params.inWindowBytes) : InputInv (pull t) := by
  have hwin : 4 ≤ t.params.inWindowBytes := Nat.le_add_left 4 _
  by_cases hd : t.drv.dstate = .error
  · have hlow : pullLow t = t.env.pulled := if_pos hd
    have hhigh : pullHigh t = t.env.cin.length := if_pos hd
    obtain ⟨_, h2⟩ := pull_pulled t (by rw [hlow, hhigh]; exact hp)
    exact ⟨hc, h2.trans hhigh.le, fun hne => absurd hd hne, fun hne => absurd hd hne, fun hne => absurd hd hne⟩
  · obtain ⟨hle, hhead⟩ := hi hd
    obtain ⟨hdiv, hdiv'⟩ := divUp_eight_le hle
    have hlow : pullLow t = max t.env.pulled (divUp t.inf.ipos.toNat 8) := if_neg hd
    have hhigh : pullHigh t = min t.env.cin.length (t.inf.ipos.toNat / 8 + t.params.inWindowBytes) := if_neg hd
    obtain ⟨h1, h2⟩ := pull_pulled t (by rw [hlow, hhigh]; omega)
    rw [hlow] at h1
    rw [hhigh] at h2
    exact ⟨hc, h2.trans (min_le_left _ _), fun _ => hle, fun _ => (le_max_right _ _).trans h1,
      fun _ => h2.trans (min_le_right _ _)⟩

theorem coreTurn_inv {s t : State} (h : Inv s) (hturn : coreTurn s = .next t) : Inv t := by
  obtain ⟨hd, hp, u, hstep, rfl⟩ := coreTurn_next hturn
  have hne : s.drv.dstate ≠ .error := by rw [hd]; decide
  obtain ⟨henv, hpar, hpos⟩ := coreStep_input (h.input.inside hne) (h.regs.converted hd) hstep
  refine RegInv.inv ((coreStep_regInv h.regs hd hp hstep).of_env _ _) (pull_inputInv ?_ ?_ fun hu => ?_)
  · rw [henv]; exact h.input.counted
  · rw [henv]; exact h.input.pulledDelivered
  · obtain ⟨hge, hle⟩ := hpos hu
    have hhigh := h.input.pulledHigh hne
    rw [henv, hpar]
    exact ⟨hle, hhigh.trans (Nat.add_le_add_right (Nat.div_le_div_right hge) _)⟩

end Sys2Proof.Machine
end

section
/-! SUPPORT. The invariant under the environment's turn: reset, commands, answers, CFG accesses and the source (R290 to R299). -/

namespace Sys2Proof.Machine

/-- `t` has the environment's side of `s`, and IPOS too unless a fatal error has undefined it (R326). -/
structure KeepsInput (s t : State) : Prop where
  env : t.env = s.env
  params : t.params = s.params
  ipos : t.drv.dstate ≠ .error → s.drv.dstate ≠ .error ∧ t.inf.ipos = s.inf.ipos

theorem InputInv.of_kept {s t : State} (h : InputInv s) (hk : KeepsInput s t) : InputInv t := by
  obtain ⟨he, hp, hi⟩ := hk
  refine ⟨by rw [he]; exact h.counted, by rw [he]; exact h.pulledDelivered, fun hd => ?_, fun hd => ?_, fun hd => ?_⟩ <;>
    obtain ⟨hs, hpos⟩ := hi hd
  · rw [he, hpos]; exact h.consumed hs
  · rw [he, hpos]; exact h.pulledLow hs
  · rw [he, hpos, hp]; exact h.pulledHigh hs

/-! ### RESET -/

theorem reset_statusInv : StatusInv State.reset :=
  ⟨rfl, nofun, nofun, by decide, by decide, by decide, .inl rfl⟩

theorem resetCore_regInv (s : State) : RegInv (resetCore s) where
  memory := rfl
  bounds := rfl
  status := { reset_statusInv with }
  window := ⟨wsize_pos _, Nat.mul_pos (by decide) (wsize_pos _), fun _ => Nat.zero_le _⟩
  element := (elementInv_iff _).2 fun _ => Inf.elementOk_of_infState rfl
  row := ⟨(by rintro (h | h | h) <;> cases h), Nat.zero_le _, Nat.zero_le _, nofun, nofun, nofun, nofun, nofun⟩
  palette := (by decide : (0 : BitVec 9).toNat ≤ 256)

theorem resetCore_inputInv (s : State) : InputInv (resetCore s) :=
  ⟨(by decide : 8 * 0 < 2 ^ 64), le_rfl, fun _ => le_rfl, fun _ => (by decide : divUp 0 8 ≤ 0), fun _ => Nat.zero_le _⟩

theorem resetCore_inv (s : State) : Inv (resetCore s) := (resetCore_regInv s).inv (resetCore_inputInv s)

/-! ### Commands -/

theorem setCmdstat_regInv {s : State} (h : RegInv s) (c : ErrCode) : RegInv (setCmdstat c s) :=
  h.setDrv id { h.status with } { h.row with }

theorem invalidCommand_inv {s t : State} (h : Inv s) (he : invalidCommand s = .next t) : Inv t := by
  cases he
  exact (setCmdstat_regInv h.regs _).inv (h.input.of_kept ⟨rfl, rfl, fun hd => ⟨hd, rfl⟩⟩)

theorem raiseUnsupported_inv {s t : State} (h : Inv s) (hs : s.drv.stopped = false)
    (he : raiseUnsupported s = .next t) : Inv t := by
  cases he
  exact (setCmdstat_regInv (trapEntry_regInv h.regs hs (.inr ⟨rfl, rfl⟩)) .unsupportedFeature).inv
    (h.input.of_kept ⟨rfl, rfl, fun hd => absurd rfl hd⟩)

/-- COMMIT_HEADER in UNINIT refuses the pixel format, or the format is converted and the rest of the header is checked. -/
theorem execCommitHeader_cases {s : State} (hd : s.drv.dstate = .uninit) :
    execCommitHeader s = raiseUnsupported s
      ∨ (s.drv.converted = true ∧ execCommitHeader s = commitConverted s) := by
  unfold execCommitHeader
  rw [if_neg (not_not.2 hd)]
  generalize hrow : decodePixfmt s.drv.colortype s.drv.bitdepth = i
  unfold decodePixfmt at hrow
  split at hrow <;> subst hrow
  case h_5 | h_7 | h_13 | h_15 | h_16 => exact .inl rfl
  all_goals
    rename_i hct hbd
    exact .inr ⟨by rw [Drv.converted, hct, hbd]; rfl, rfl⟩

theorem execCommitHeader_inv {s t : State} (h : Inv s) (he : execCommitHeader s = .next t) : Inv t := by
  by_cases hd : s.drv.dstate = .uninit
  · have hne : s.drv.dstate ≠ .error := by rw [hd]; decide
    have hstop := h.status.not_stopped (by rw [hd]; decide)
    have hpend := h.status.not_pending (by rw [hd]; decide)
    rcases execCommitHeader_cases hd with hraise | ⟨hconv, hcommit⟩
    · exact raiseUnsupported_inv h hstop (hraise.symm.trans he)
    rw [hcommit] at he
    unfold commitConverted at he
    split at he
    · rename_i hfits
      cases he
      refine RegInv.inv (h.regs.setDrv (fun _ => hne) ?_ ?_)
        (h.input.of_kept ⟨rfl, rfl, fun _ => ⟨hne, rfl⟩⟩)
      · have hcode : s.drv.errcode = .success := not_not.1 fun hc => hne (h.status.errorCode.2 hc)
        have hcause : s.drv.errcause = .noError := not_not.1 fun hc => hne (h.status.errorCause.2 hc)
        exact
          { h.status with
            pendingDecoding := fun hp => absurd (hpend.symm.trans hp) (by decide)
            stoppedDone := fun hs => absurd (hstop.symm.trans hs) (by decide)
            errorCode := by simp [hcode]
            errorCause := by simp [hcause] }
      · exact
          { h.row with
            header := fun _ => Bool.and_eq_true_iff.2 ⟨hconv, hfits⟩
            pass := nofun, stride := nofun, row := nofun, room := nofun, filter := nofun }
    · exact raiseUnsupported_inv h hstop he
  · unfold execCommitHeader at he
    rw [if_pos hd] at he
    exact invalidCommand_inv h he

/-! ### Passes -/

theorem channels_pos_of_named : ∀ p ∈ namedPixelPairs.take 11, 1 ≤ channels (BitVec.ofNat 8 p.1) * p.2 := by decide

theorem bpx_pos_of_converted {d : Drv} (h : d.converted = true) : 1 ≤ d.bpx := by
  have hpos := channels_pos_of_named _ (List.contains_iff_mem.1 h)
  rwa [BitVec.ofNat_toNat, BitVec.setWidth_eq] at hpos

theorem stride_pos {d : Drv} {w : Nat} (hd : 1 ≤ d.bpx) (hw : 1 ≤ w) : 1 ≤ d.stride w := by
  have hmul : 1 ≤ d.bpx * w := Nat.mul_pos hd hw
  unfold Drv.stride divUp
  omega

theorem headerFits_iff {s : State} : headerFits s = true ↔
    s.drv.interlace.toNat ≤ 1 ∧ 1 ≤ s.drv.width.toNat ∧ 1 ≤ s.drv.height.toNat
      ∧ s.drv.stride s.drv.width.toNat ≤ s.params.maxStride := by
  simp [headerFits, and_assoc]

theorem startPass_memory_wf {s : State} (q : Nat) (h : s.mem.wf = true) : (startPass q s).mem.wf = true :=
  Memory.wf_setRowbuf _ h (Cells.wf_zeroBelow _ _ (Memory.wf_rowbuf _ h))

theorem startPass_memory_inBounds {s : State} (q : Nat) (h : s.mem.inBounds s.params = true) :
    (startPass q s).mem.inBounds s.params = true := by
  obtain ⟨_, b0, b1, _⟩ := (Memory.inBounds_iff _ _).1 h
  refine Memory.inBounds_setRowbuf _ h (Cells.below_zeroBelow _ ?_)
  unfold State.prevRow Memory.rowbuf
  split
  · exact b1
  · exact b0

/-- An accepted header's pass that contains pixels starts with every row invariant (R233, R235, R49). -/
theorem startPass_rowInv {s : State} {q : Nat} (hok : s.headerOk = true) (hq : q ≤ 7)
    (hzero : q = 0 ↔ s.drv.interlace = 0) (hpix : PassHasPixels s.drv q) : RowInv (startPass q s) := by
  obtain ⟨hconv, hfits⟩ := Bool.and_eq_true_iff.1 hok
  obtain ⟨_, _, _, hstride⟩ := headerFits_iff.1 hfits
  have hpass : BitVec.ofNat 3 q = 0 ↔ q = 0 := by
    rw [← BitVec.toNat_inj, BitVec.toNat_ofNat, Nat.mod_eq_of_lt (by omega)]
    rfl
  refine
    { header := fun _ => hok
      rxWidth := Nat.zero_le _
      pstrideWidth := (stride_pass_le s.drv q).trans hstride
      pass := fun _ => hpass.trans hzero
      stride := fun _ => stride_pos (bpx_pos_of_converted hconv) hpix.1
      row := fun _ => ?_
      room := nofun
      filter := nofun }
  have hlt : passHeight s.drv q < 2 ^ 32 := (passHeight_le s.drv q).trans_lt s.drv.height.isLt
  show (0 : BitVec 32).toNat < (BitVec.ofNat 32 (passHeight s.drv q)).toNat
  rw [BitVec.toNat_ofNat, Nat.mod_eq_of_lt hlt]
  exact hpix.2

theorem divUp_pos {n s : Nat} (hn : 1 ≤ n) (hs : 1 ≤ s) : 1 ≤ divUp n s := by
  unfold divUp
  exact Nat.div_pos (by omega) hs

/-- The image's first pass contains pixels (R235). -/
theorem firstPass_hasPixels {d : Drv} (hw : 1 ≤ d.width.toNat) (hh : 1 ≤ d.height.toNat) :
    firstPass d ≤ 7 ∧ (firstPass d = 0 ↔ d.interlace = 0) ∧ PassHasPixels d (firstPass d) := by
  have horigin : ∀ q, (passGeometry q).xo = 0 → (passGeometry q).yo = 0 → PassHasPixels d q := by
    intro q hx hy
    unfold PassHasPixels passWidth passHeight passDim
    rw [hx, hy, if_pos (by omega), if_pos (by omega)]
    exact ⟨divUp_pos (by omega) (passGeometry_steps q).1, divUp_pos (by omega) (passGeometry_steps q).2⟩
  unfold firstPass
  by_cases h0 : d.interlace = 0
  · rw [if_pos h0]
    exact ⟨by decide, iff_of_true rfl h0, horigin 0 rfl rfl⟩
  · have hone : nextPass d 1 = some 1 :=
      nextPass_eq_some.2 ⟨le_rfl, by decide, horigin 1 rfl rfl, fun r h1 h2 => by omega⟩
    rw [if_neg h0, hone]
    exact ⟨by decide, iff_of_false (by decide) h0, horigin 1 rfl rfl⟩

/-- START announces the first element, which has nothing to say yet, and starts the first pass. -/
theorem execStart_inv {s t : State} (h : Inv s) (he : execStart s = .next t) : Inv t := by
  unfold execStart at he
  split at he
  · exact invalidCommand_inv h he
  · rename_i hd
    rw [not_not] at hd
    cases he
    have hne : s.drv.dstate ≠ .error := by rw [hd]; decide
    have hstop := h.status.not_stopped (by rw [hd]; decide)
    have hok := h.row.header (.inl hd)
    obtain ⟨_, hw, hh, _⟩ := headerFits_iff.1 (Bool.and_eq_true_iff.1 hok).2
    obtain ⟨hq, hzero, hpix⟩ := firstPass_hasPixels hw hh
    have hcode : s.drv.errcode = .success := not_not.1 fun hc => hne (h.status.errorCode.2 hc)
    have hcause : s.drv.errcause = .noError := not_not.1 fun hc => hne (h.status.errorCause.2 hc)
    refine RegInv.inv
      ⟨startPass_memory_wf _ h.memory, startPass_memory_inBounds _ h.bounds, ?_,
        ⟨h.window.wpos, h.window.histWidth, fun _ => h.window.hist hne⟩, ?_, startPass_rowInv hok hq hzero hpix, h.palette⟩
      (h.input.of_kept ⟨rfl, rfl, fun _ => ⟨hne, rfl⟩⟩)
    · exact
        { h.status with
          pendingDecoding := fun _ => rfl
          stoppedDone := fun hs => absurd (hstop.symm.trans hs) (by decide)
          errorCode := by simp [startPass, hcode]
          errorCause := by simp [startPass, hcause] }
    · refine (elementInv_iff _).2 fun _ => Inf.elementOk_of_infState ?_
      show (if s.drv.rawDeflate then InfState.blkhdr else .zhdr).announces = false
      split <;> rfl

/-! ### Answers -/

/-- What an answer leaves and writes beside FLT and the memories (R298, R299): the record goes, and DSTATE stays or becomes
DONE. -/
structure Answered (s t : State) : Prop where
  inf : t.inf = s.inf
  params : t.params = s.params
  pix : t.pix = s.pix
  env : t.env = s.env
  noRecord : t.rout = none
  notPending : t.drv.rowPending = false
  stopped : t.drv.stopped = true → t.drv.dstate = .done
  noError : t.drv.dstate ≠ .error
  errcode : t.drv.errcode = s.drv.errcode
  errcause : t.drv.errcause = s.drv.errcause

theorem Inv.answered {s t : State} (h : Inv s) (hd : s.drv.dstate = .decoding) (ha : Answered s t)
    (hmem : t.mem.wf = true) (hbounds : t.mem.inBounds s.params = true) (hrow : RowInv t) : Inv t := by
  have hne : s.drv.dstate ≠ .error := by rw [hd]; decide
  have hcode : t.drv.errcode = .success := ha.errcode.trans (not_not.1 fun hc => hne (h.status.errorCode.2 hc))
  have hcause : t.drv.errcause = .noError := ha.errcause.trans (not_not.1 fun hc => hne (h.status.errorCause.2 hc))
  refine RegInv.inv ⟨hmem, ha.params ▸ hbounds, ?_, ?_, ?_, hrow, ?_⟩
    (h.input.of_kept ⟨ha.env, ha.params, fun _ => ⟨hne, congrArg Inf.ipos ha.inf⟩⟩)
  · exact ⟨by rw [ha.notPending, ha.noRecord]; rfl, fun hp => absurd (ha.notPending.symm.trans hp) (by decide), ha.stopped,
      iff_of_false ha.noError (not_not.2 hcode), iff_of_false ha.noError (not_not.2 hcause), by simp [hcode, hcause],
      .inl hcode⟩
  · exact ⟨by rw [ha.inf, ha.params]; exact h.window.wpos, by rw [ha.inf, ha.params]; exact h.window.histWidth,
      fun _ => by rw [ha.inf, ha.params]; exact h.window.hist hne⟩
  · exact (elementInv_iff t).2 fun _ => ha.inf ▸ (elementInv_iff s).1 h.element hne
  · exact (congrArg (fun p => p.palCount.toNat) ha.pix).trans_le h.palette

theorem execAnswerStop_inv {s t : State} (h : Inv s) (he : execAnswerStop s = .next t) : Inv t := by
  unfold execAnswerStop at he
  split at he
  · rename_i hp
    cases he
    have hd := h.status.pendingDecoding hp
    exact h.answered hd ⟨rfl, rfl, rfl, rfl, rfl, rfl, fun _ => rfl, nofun, rfl, rfl⟩ h.memory h.bounds
      { header := fun _ => h.row.header (.inr (.inl hd))
        rxWidth := h.row.rxWidth, pstrideWidth := h.row.pstrideWidth
        pass := nofun, stride := nofun, row := nofun, room := nofun, filter := nofun }
  · cases he; exact h

/-- After the answer `continue` the next row or the next pass starts with its tag, or the decode is done (R232, R300). -/
theorem execAnswerContinue_inv {s t : State} (h : Inv s) (he : execAnswerContinue s = .next t) : Inv t := by
  unfold execAnswerContinue at he
  split at he
  case isFalse => cases he; exact h
  rename_i hp
  cases he
  have hd := h.status.pendingDecoding hp
  have hok := h.row.header (.inr (.inl hd))
  have hstop : s.drv.stopped = true → s.drv.dstate = .done := h.status.stoppedDone
  have hne : s.drv.dstate ≠ .error := by rw [hd]; decide
  obtain ⟨s1, rfl, ⟨hlast, hadv⟩ | ⟨hlast, _, hadv⟩ | ⟨hlast, hi, q, hq, hadv⟩⟩ :=
    rowAdvance_cases ((s.setRout none).setDrv { s.drv with rowPending := false }) <;> rw [hadv]
  · refine h.answered hd ⟨rfl, rfl, rfl, rfl, rfl, rfl, hstop, hne, rfl, rfl⟩ h.memory h.bounds
      { h.row with rxWidth := Nat.zero_le _, room := nofun, filter := nofun, row := fun _ => ?_ }
    have hlt := h.row.row hd
    have hlast' : s.flt.prow + 1 ≠ s.flt.ph := hlast
    show (s.flt.prow + 1).toNat < s.flt.ph.toNat
    bv_omega
  · exact h.answered hd ⟨rfl, rfl, rfl, rfl, rfl, rfl, fun _ => rfl, nofun, rfl, rfl⟩ h.memory h.bounds
      { header := fun _ => hok
        rxWidth := Nat.zero_le _, pstrideWidth := h.row.pstrideWidth
        pass := nofun, stride := nofun, row := nofun, room := nofun, filter := nofun }
  · obtain ⟨hk, hq7, hw, hh⟩ := nextPass_some hq
    have hi' : s.drv.interlace = 1 := hi
    have hzero : q = 0 ↔ s.drv.interlace = 0 := iff_of_false (by omega) (by rw [hi']; decide)
    exact h.answered hd ⟨rfl, rfl, rfl, rfl, rfl, rfl, hstop, hne, rfl, rfl⟩ (startPass_memory_wf q h.memory)
      (startPass_memory_inBounds q h.bounds) (startPass_rowInv hok hq7 hzero ⟨hw, hh⟩)

/-! ### The CFG port and the source -/

/-- Before START only the header's acceptance depends on DRV, and no header register is written after that acceptance. -/
theorem writeHeader_regInv {s : State} {d : Drv} (h : RegInv s) (hs : StatusInv (s.setDrv d))
    (hd : d.dstate = s.drv.dstate) : RegInv (writeHeader s d) := by
  unfold writeHeader
  split
  · rename_i hu
    have hdu : d.dstate = .uninit := hd.trans hu
    refine h.setDrv (fun hne => hd ▸ hne) hs
      ⟨?_, h.row.rxWidth, h.row.pstrideWidth, ?_, ?_, ?_, ?_, ?_⟩ <;> intro hx <;> simp [hdu] at hx
  · exact h

theorem writePix_regInv {s : State} {p : Pix} (h : RegInv s) (hp : p.palCount.toNat ≤ 256) : RegInv (writePix s p) := by
  unfold writePix
  split
  · exact h.setPix hp
  · exact h

theorem writePal_regInv {s : State} {i : Nat} (h : RegInv s) (hi : i < 256) (v : BitVec 24) :
    RegInv (writePal i v s) := by
  unfold writePal
  split
  · obtain ⟨hwin, h0, h1, hp⟩ := (Memory.wf_iff _).1 h.memory
    obtain ⟨bwin, b0, b1, bp⟩ := (Memory.inBounds_iff _ _).1 h.bounds
    exact h.setMem ((Memory.wf_iff _).2 ⟨hwin, h0, h1, Cells.wf_write _ _ _ hp⟩)
      ((Memory.inBounds_iff _ _).2 ⟨bwin, b0, b1, Cells.below_write v bp hi⟩)
  · exact h

theorem cfgStore_regInv {s : State} {off : Nat} (h : RegInv s) (hoff : off < 2048) (data : BitVec 32) :
    RegInv (cfgStore off data s) := by
  unfold cfgStore
  split
  · exact writePal_regInv h (by omega) _
  split
  · split
    · exact h.setDrv id { h.status with } { h.row with }
    · exact h
  case h_2 | h_3 | h_4 | h_5 | h_6 => exact writeHeader_regInv h { h.status with } rfl
  case h_7 => exact writePix_regInv h (by rw [palCountOf_toNat]; exact min_le_right _ _)
  case h_8 | h_9 | h_10 | h_11 | h_12 | h_13 => exact writePix_regInv h h.palette
  case h_14 => exact h

end Sys2Proof.Machine
end

section
/-! SUPPORT. The invariant under every step (R334), and the obligations about it. -/

namespace Sys2Proof.Machine

/-! ### Words of the two ports (R88) -/

theorem runWord_cmd (data : BitVec 32) (run : Instr → Result) :
    runWord .cmd (data.toNat % 8) run = run (decodeCmd (data.toNat % 8)) := by
  have hw : ¬ 2 ^ Format.cmd.width ≤ data.toNat % 8 := not_le.2 (Nat.mod_lt _ (by decide))
  simp only [runWord, decode, if_neg hw]

theorem runWord_rowans (bit : BitVec 1) (run : Instr → Result) :
    runWord .rowans bit.toNat run = run (if bit = 0 then .answerContinue else .answerStop) := by
  rcases BitVec.eq_zero_or_eq_one bit with rfl | rfl <;> rfl

/-- The rows of the command port (R88, R302). -/
theorem exec_decodeCmd_cases (w : Nat) (s : State) :
    exec (decodeCmd w) s = execReset s ∨ exec (decodeCmd w) s = execCommitHeader s
      ∨ exec (decodeCmd w) s = execStart s ∨ exec (decodeCmd w) s = invalidCommand s := by
  unfold decodeCmd
  split
  case h_1 => exact .inr (.inr (.inr rfl))
  case h_2 => exact .inl rfl
  case h_3 => exact .inr (.inl rfl)
  case h_4 => exact .inr (.inr (.inl rfl))
  case h_5 => exact .inr (.inr (.inr rfl))

/-! ### The environment's turn -/

theorem execReset_inv {s t : State} (he : execReset s = .next t) : Inv t := by
  cases he; exact resetCore_inv s

theorem command_inv {s t : State} {w : Nat} (h : Inv s) (he : exec (decodeCmd w) s = .next t) : Inv t := by
  rcases exec_decodeCmd_cases w s with hc | hc | hc | hc <;> rw [hc] at he
  · exact execReset_inv he
  · exact execCommitHeader_inv h he
  · exact execStart_inv h he
  · exact invalidCommand_inv h he

theorem CfgFrame.keepsInput {s t : State} (h : CfgFrame s t) : KeepsInput s t :=
  ⟨h.env, h.params, fun hd => ⟨h.dstate ▸ hd, congrArg Inf.ipos h.inf⟩⟩

theorem cfgWrite_inv {s t : State} {off : BitVec 11} {data : BitVec 32} (h : Inv s)
    (he : cfgWrite off data s = .next t) : Inv t := by
  unfold cfgWrite at he
  split at he
  · cases he
  split at he
  · rw [runWord_cmd] at he
    exact command_inv h he
  · cases he
    exact (cfgStore_regInv h.regs off.isLt data).inv (h.input.of_kept (cfgStore_frame _ _ _).keepsInput)

theorem sourceByte_inv {s t : State} {b : Byte} (h : Inv s) (he : sourceByte b s = .next t) : Inv t := by
  unfold sourceByte at he
  split at he
  · cases he; exact h
  split at he
  · cases he
  · rename_i hroom
    cases he
    have hlen : (s.env.cin ++ [b]).length = s.env.cin.length + 1 := by simp
    refine (h.regs.setEnv _).inv ⟨?_, ?_, fun hd => ?_, h.input.pulledLow, h.input.pulledHigh⟩
    · rw [State.setEnv_env, hlen]; omega
    · rw [State.setEnv_env, hlen]; exact h.input.pulledDelivered.trans (Nat.le_succ _)
    · rw [State.setEnv_env, hlen]; exact (h.input.consumed hd).trans (Nat.mul_le_mul_left 8 (Nat.le_succ _))

theorem answer_inv {s t : State} {bit : BitVec 1} (h : Inv s)
    (he : runWord .rowans bit.toNat (fun i => exec i s) = .next t) : Inv t := by
  rw [runWord_rowans] at he
  split at he
  · exact execAnswerContinue_inv h he
  · exact execAnswerStop_inv h he

theorem envAct_inv {a : EnvAct} {s t : State} (h : Inv s) (he : envAct a s = .next t) : Inv t := by
  cases a with
  | hwReset => exact execReset_inv he
  | cfgWrite off data => exact cfgWrite_inv h he
  | cfgRead off =>
    simp only [envAct, cfgRead] at he
    split at he
    · cases he
    · cases he
      exact (h.regs.setEnv _).inv { h.input with }
  | cinByte b => exact sourceByte_inv h he
  | cinEos =>
    cases he
    exact (h.regs.setEnv _).inv { h.input with }
  | answer bit => exact answer_inv h he

theorem setInputs_inv {s : State} (h : Inv s) (q : List (Nat × EnvAct)) : Inv (s.setInputs q) :=
  (h.regs.of_env _ s.freeCtr).inv { h.input with }

/-! ### A state outside the invariant -/

/-- In ERROR, with IPOS beyond the empty stream and (unreachably) a row pending, the sink answers `stop`. -/
def errorWithRowPending : State :=
  { State.reset with
    inf := { Inf.reset with ipos := 1 }
    drv := { Drv.reset with dstate := .error, rowPending := true }
    env := { Env.reset with inputs := [(0, .answer 1)] } }

theorem errorWithRowPending_inputInv : InputInv errorWithRowPending :=
  ⟨(by decide : 8 * 0 < 2 ^ 64), le_rfl, fun h => absurd rfl h, fun h => absurd rfl h, fun h => absurd rfl h⟩

end Sys2Proof.Machine

open Sys2Proof Sys2Proof.Machine

/-- Settles O59: the core's turn and each action of the environment keep every part of the invariant. -/
theorem stepKeepsInv : Obligations.StepKeepsInv := by
  intro s t h hstep
  rcases step_next hstep with ⟨_, _, hturn⟩ | ⟨n, a, rest, t0, _, _, hturn, rfl⟩ | ⟨n, a, rest, _, _, hact, _⟩
  · exact coreTurn_inv h hturn
  · exact setInputs_inv (coreTurn_inv h hturn) _
  · exact envAct_inv (setInputs_inv h rest) hact

/-- Settles O60: the state after reset is what RESET makes of itself, and RESET establishes the invariant from any state. -/
theorem resetSatisfiesInv : Obligations.ResetSatisfiesInv :=
  resetCore_inv State.reset

/-- Refutes O58: the input accounting says nothing of IPOS in ERROR, and nothing of ROW_PENDING. From ERROR with a row pending,
the answer `stop` makes DSTATE DONE (R299) while IPOS stays beyond the stream. No run reaches such a state: `stepKeepsInv` has
`StatusInv` among its hypotheses, under which a row is pending in DECODING only. -/
theorem not_stepKeepsInputWindow : ¬ Obligations.StepKeepsInputWindow := by
  intro h
  have hnext : step errorWithRowPending = .next
      (((errorWithRowPending.setInputs []).setRout none).setDrv
        { errorWithRowPending.drv with rowPending := false, stopped := true, dstate := .done }) := rfl
  have hconsumed := (h _ _ errorWithRowPending_inputInv hnext).consumed (by decide)
  exact absurd hconsumed (by decide : ¬ (1 : BitVec 64).toNat ≤ 8 * 0)
end

section
/-! SUPPORT. Which step is taken: the core's turn when nothing stands before it (R296), and only a reset before the first one
(R39, U1); and the obligations about both. -/

namespace Sys2Proof.Machine

/-! ### The core's turn -/

theorem step_of_coreMoves {s : State} (h : CoreMoves s) : step s = coreTurn s := by
  unfold step turn
  rw [h.noInput]
  exact if_pos h.beenReset

theorem coreTurn_of_next {s u : State} (h : CoreMoves s) (hu : coreStep s = .next u) : coreTurn s = .next (pull u) := by
  unfold coreTurn
  rw [h.decoding]
  simp only [h.notPending, hu, Bool.false_eq_true, if_false]

theorem coreTurn_of_fault {s : State} {x : Fault} (h : CoreMoves s) (hx : coreStep s = .fault x) :
    coreTurn s = .fault x := by
  unfold coreTurn
  rw [h.decoding]
  simp only [h.notPending, hx, Bool.false_eq_true, if_false]

theorem coreStep_of_fetch {s s1 : State} {f : Format} {w : Nat} {i : Instr} (hf : fetchWord s = .ok (f, w, s1))
    (hi : decode f w = .ok i) : coreStep s = runElement i s1 := by
  simp only [coreStep, hf, andThen_ok, runWord, hi]

theorem runElement_of_not_isLength {i : Instr} (h : i.isLength = false) (s : State) : runElement i s = exec i s := by
  unfold runElement
  cases exec i s <;> simp [h]

theorem runElement_of_isLength {i : Instr} {s t : State} (h : i.isLength = true) (ht : exec i s = .next t)
    (hd : t.drv.dstate = .decoding) : runElement i s = distanceStep t := by
  unfold runElement
  rw [ht]
  simp [h, hd]

theorem distanceStep_of_decode {s s2 : State} {d : Nat} {j : Instr}
    (hd : decodeSym (fileLens s.inf.dLen) s = .ok (d, s2)) (hj : decode .dsym d = .ok j) :
    distanceStep s = exec j s2 := by
  simp only [distanceStep, hd, andThen_ok, runWord, hj]

/-! ### Before the first reset -/

theorem iwin_resetCore (s : State) : iwin (resetCore s) = [] := by
  simp [iwin, resetCore, Env.reset]

/-- Before the first reset the core takes no step, so the first queued action comes at once, whatever its delay. -/
theorem step_before_reset {s : State} {n : Nat} {a : EnvAct} {rest : List (Nat × EnvAct)}
    (hb : s.env.beenReset = false) (hq : s.env.inputs = (n, a) :: rest) : step s = envTurn a (s.setInputs rest) := by
  unfold step turn
  rw [hq]
  cases n with
  | zero => rfl
  | succ n => simp only [coreTurnIfReset, hb, Bool.false_eq_true, if_false]

theorem envTurn_refused {s : State} {a : EnvAct} (hb : s.env.beenReset = false) (ha : a.isReset = false) :
    envTurn a s = .refused .beforeFirstReset := by
  simp only [envTurn, hb, ha, Bool.or_self, Bool.false_eq_true, if_false]

/-- Both sources of reset run RESET (R360). -/
theorem envTurn_reset {s : State} {a : EnvAct} (ha : a.isReset = true) : envTurn a s = exec .reset s := by
  unfold envTurn
  rw [ha, Bool.or_true, if_pos rfl]
  cases a with
  | hwReset => rfl
  | cfgWrite off data =>
    obtain ⟨hoff, hdata⟩ := Bool.and_eq_true_iff.1 ha
    obtain rfl : off = 0 := eq_of_beq hoff
    show runWord .cmd (data.toNat % 8) (fun i => exec i s) = exec .reset s
    rw [eq_of_beq hdata]
    rfl
  | cfgRead | cinByte | cinEos | answer => cases ha

end Sys2Proof.Machine

open Sys2Proof Sys2Proof.Machine

/-- Settles O36: RESET puts back every register group and memory, and before it nothing else is taken. -/
theorem resetClearsEverything : Obligations.ResetClearsEverything := by
  refine ⟨fun s => ⟨resetCore s, rfl, rfl, rfl, rfl, rfl, rfl, rfl, rfl, rfl, iwin_resetCore s, rfl, fun a => ⟨rfl, rfl, rfl, rfl⟩,
    rfl, rfl, rfl⟩, fun s n a rest hb hq => ?_⟩
  rw [step_before_reset hb hq]
  exact ⟨fun ha => envTurn_refused hb ha, fun ha => envTurn_reset ha⟩

/-- Settles O45: the step is the core's turn, which runs the row fetched, and after a length symbol the distance symbol. -/
theorem stepRunsTheDecodedRow : Obligations.StepRunsTheDecodedRow := by
  intro s s1 f w i hmoves hfetch hi
  have hstep := coreStep_of_fetch hfetch hi
  rw [step_of_coreMoves hmoves]
  refine ⟨fun hl => ?_, fun hl t u d j s2 ht hd hdec hj hu => ?_⟩
  · rw [runElement_of_not_isLength hl] at hstep
    exact ⟨fun t ht => coreTurn_of_next hmoves (hstep.trans ht), fun x hx => coreTurn_of_fault hmoves (hstep.trans hx)⟩
  · rw [runElement_of_isLength hl ht hd, distanceStep_of_decode hdec hj] at hstep
    exact coreTurn_of_next hmoves (hstep.trans hu)
end

section
/-! SUPPORT. Canonical codes (R130), the bits of a code (R44), and how `DecodeSym` compares the two (R133). -/

namespace Sys2Proof.Machine

/-! ### The symbols of one code length (R130) -/

theorem symbolsOfLength_length (lens : List Nat) (l : Nat) : (symbolsOfLength lens l).length = lengthCount lens l := by
  have hcount : ∀ start, ((lens.zipIdx start).filter fun p => p.1 == l).length = lens.count l := by
    intro start
    induction lens generalizing start with
    | nil => rfl
    | cons x lens ih =>
      rw [List.zipIdx_cons, List.filter_cons, List.count_cons, ← ih (start + 1)]
      split <;> simp
  exact (List.length_map ..).trans (hcount 0)

theorem symbolsOfLength_nodup (lens : List Nat) (l : Nat) : (symbolsOfLength lens l).Nodup := by
  have hsub : (symbolsOfLength lens l).Sublist (lens.zipIdx.map Prod.snd) := List.filter_sublist.map _
  rw [List.zipIdx_map_snd] at hsub
  exact hsub.nodup List.nodup_range'

/-- The symbols before `sym` with its code length are what precedes `sym` among the symbols of that length. -/
theorem symbolsOfLength_of_symbol {lens : List Nat} {sym k : Nat} (h : lens[sym]? = some k) :
    (symbolsOfLength lens k)[(lens.take sym).count k]? = some sym := by
  obtain ⟨hlt, hk⟩ := List.getElem?_eq_some_iff.1 h
  have hsplit : lens = lens.take sym ++ k :: lens.drop (sym + 1) := by
    rw [← hk, List.getElem_cons_drop, List.take_append_drop]
  have hlen : (lens.take sym).length = sym := List.length_take_of_le hlt.le
  have hsyms : symbolsOfLength lens k = symbolsOfLength (lens.take sym) k
      ++ sym :: (((lens.drop (sym + 1)).zipIdx (sym + 1)).filter fun p => p.1 == k).map Prod.snd := by
    conv_lhs => rw [hsplit]
    simp [symbolsOfLength, List.zipIdx_append, hlen]
  have hrank : (symbolsOfLength (lens.take sym) k).length = (lens.take sym).count k := symbolsOfLength_length _ _
  rw [hsyms, ← hrank, List.getElem?_append_right le_rfl, Nat.sub_self]
  rfl

/-- A symbol's place among the symbols of its length is the number of those before it. -/
theorem symbolsOfLength_getElem?_eq_some {lens : List Nat} {k r sym : Nat} :
    (symbolsOfLength lens k)[r]? = some sym ↔ lens[sym]? = some k ∧ (lens.take sym).count k = r := by
  constructor
  · intro h
    have hk := (symbolsOfLength_mem lens k sym).1 (List.mem_of_getElem? h)
    have hlt := (List.getElem?_eq_some_iff.1 (symbolsOfLength_of_symbol hk)).1
    exact ⟨hk, (List.getElem?_inj hlt (symbolsOfLength_nodup lens k)).1 ((symbolsOfLength_of_symbol hk).trans h.symm)⟩
  · rintro ⟨hk, rfl⟩
    exact symbolsOfLength_of_symbol hk

theorem symbolsOfLength_getElem?_eq_none {lens : List Nat} {k r : Nat} :
    (symbolsOfLength lens k)[r]? = none ↔ lengthCount lens k ≤ r := by
  rw [List.getElem?_eq_none_iff, symbolsOfLength_length]

theorem canonCode_of_length {lens : List Nat} {sym k : Nat} (h : lens[sym]? = some k) :
    canonCode lens sym = firstCode lens k + (lens.take sym).count k := by
  rw [canonCode, List.getD_eq_getElem?_getD, h]
  rfl

/-- The codes of one length are consecutive from the first (R130). -/
theorem canonCode_bounds {lens : List Nat} {sym k : Nat} (h : lens[sym]? = some k) :
    firstCode lens k ≤ canonCode lens sym ∧ canonCode lens sym < firstCode lens k + lengthCount lens k := by
  have hrank := (List.getElem?_eq_some_iff.1 (symbolsOfLength_of_symbol h)).1
  rw [symbolsOfLength_length] at hrank
  rw [canonCode_of_length h]
  omega

/-! ### Code space (R131) -/

/-- The part of the code space, of 2^15, that the codes of the lengths 1 to `m` use. -/
def spaceUsed (lens : List Nat) (m : Nat) : Nat :=
  (lens.map fun l => if l = 0 ∨ m < l then 0 else 2 ^ (15 - l)).sum

theorem spaceUsed_zero (lens : List Nat) : spaceUsed lens 0 = 0 := by
  refine List.sum_eq_zero fun x hx => ?_
  obtain ⟨l, _, rfl⟩ := List.mem_map.1 hx
  exact if_pos (Nat.eq_zero_or_pos l)

theorem spaceUsed_succ (lens : List Nat) (m : Nat) :
    spaceUsed lens (m + 1) = spaceUsed lens m + lengthCount lens (m + 1) * 2 ^ (15 - (m + 1)) := by
  induction lens with
  | nil => simp [spaceUsed, lengthCount]
  | cons x lens ih =>
    simp only [spaceUsed, lengthCount, List.map_cons, List.sum_cons, List.count_cons] at ih ⊢
    rw [ih]
    rcases lt_trichotomy x (m + 1) with hx | rfl | hx
    · rw [if_neg (show ¬ (x == m + 1) = true by simpa using hx.ne)]
      simp only [show ¬ m + 1 < x by omega, show ¬ m < x by omega, Nat.add_zero]
      omega
    · simp
      ring
    · rw [if_neg (show ¬ (x == m + 1) = true by simpa using hx.ne')]
      simp only [show m + 1 < x from hx, show m < x by omega]
      simp

theorem spaceUsed_le_kraft (lens : List Nat) (m : Nat) : spaceUsed lens m ≤ kraft lens := by
  refine List.sum_le_sum fun l _ => ?_
  by_cases h0 : l = 0
  · simp [h0]
  · rw [if_neg h0]
    split
    · exact Nat.zero_le _
    · exact le_rfl

/-- The first code of a length is the code space that the shorter codes use, counted in codes of that length (R130, R131). -/
theorem firstCode_space (lens : List Nat) {l : Nat} (hl : l + 1 ≤ 15) :
    firstCode lens (l + 1) * 2 ^ (15 - (l + 1)) = spaceUsed lens l := by
  induction l with
  | zero => simp [firstCode, spaceUsed_zero]
  | succ l ih =>
    have hpow : 2 ^ (15 - (l + 1)) = 2 * 2 ^ (15 - (l + 2)) := by
      rw [← pow_succ']
      congr 1
      omega
    rw [firstCode, if_neg (Nat.succ_ne_zero l), spaceUsed_succ, ← ih (by omega), hpow]
    ring

/-- In a set that is not over-subscribed, a code of length `k` is a number of `k` bits. -/
theorem canonCode_lt {lens : List Nat} {sym k : Nat} (hkraft : kraft lens ≤ 2 ^ 15) (h : lens[sym]? = some k)
    (h0 : 0 < k) (h15 : k ≤ 15) : canonCode lens sym < 2 ^ k := by
  obtain ⟨l, rfl⟩ : ∃ l, k = l + 1 := ⟨k - 1, by omega⟩
  refine (canonCode_bounds h).2.trans_le (Nat.le_of_mul_le_mul_right (c := 2 ^ (15 - (l + 1))) ?_ (by positivity))
  calc (firstCode lens (l + 1) + lengthCount lens (l + 1)) * 2 ^ (15 - (l + 1))
      = spaceUsed lens (l + 1) := by rw [Nat.add_mul, firstCode_space lens h15, spaceUsed_succ]
    _ ≤ 2 ^ 15 := (spaceUsed_le_kraft lens _).trans hkraft
    _ = 2 ^ (l + 1) * 2 ^ (15 - (l + 1)) := by rw [← pow_add]; congr 1; omega

/-- Every code begins beyond the codes of each shorter length, so no code begins with another. -/
theorem firstCode_mul_le (lens : List Nat) (l d : Nat) :
    (firstCode lens (l + 1) + lengthCount lens (l + 1)) * 2 ^ (d + 1) ≤ firstCode lens (l + 1 + (d + 1)) := by
  induction d with
  | zero => simp [firstCode]
  | succ d ih =>
    calc (firstCode lens (l + 1) + lengthCount lens (l + 1)) * 2 ^ (d + 2)
        = (firstCode lens (l + 1) + lengthCount lens (l + 1)) * 2 ^ (d + 1) * 2 := by ring
      _ ≤ firstCode lens (l + 1 + (d + 1)) * 2 := Nat.mul_le_mul_right 2 ih
      _ ≤ firstCode lens (l + 1 + (d + 2)) := Nat.mul_le_mul_right 2 (Nat.le_add_right _ _)

/-! ### The bits of a code (R44) -/

/-- The number that the next `n` bits of the stream make, the first bit read its most significant (R44). -/
def codeRead (s : State) : Nat → Nat
  | 0 => 0
  | n + 1 => codeRead s n * 2 + bitNat (cinBit s.env.cin (s.inf.ipos.toNat + n))

theorem codeRead_lt (s : State) (n : Nat) : codeRead s n < 2 ^ n := by
  induction n with
  | zero => simp [codeRead]
  | succ n ih =>
    have hbit := bitNat_lt (cinBit s.env.cin (s.inf.ipos.toNat + n))
    rw [codeRead, pow_succ]
    omega

theorem codeRead_div (s : State) (n d : Nat) : codeRead s (n + d) / 2 ^ d = codeRead s n := by
  induction d with
  | zero => simp
  | succ d ih =>
    have hbit := bitNat_lt (cinBit s.env.cin (s.inf.ipos.toNat + (n + d)))
    have hhalf : codeRead s (n + d + 1) / 2 = codeRead s (n + d) := by
      rw [codeRead]
      omega
    rw [pow_succ', ← Nat.div_div_eq_div_mul, ← Nat.add_assoc, hhalf, ih]

theorem codeRead_testBit (s : State) {n j : Nat} (hj : j < n) :
    (codeRead s n).testBit (n - 1 - j) = cinBit s.env.cin (s.inf.ipos.toNat + j) := by
  obtain ⟨d, rfl⟩ : ∃ d, n = j + 1 + d := ⟨n - (j + 1), by omega⟩
  rw [show j + 1 + d - 1 - j = d by omega, Nat.testBit_eq_decide_div_mod_eq, codeRead_div, codeRead]
  cases cinBit s.env.cin (s.inf.ipos.toNat + j) <;> simp [bitNat, Nat.add_mod]

/-- If the stream continues with the `n` bits of a code, the code is the number read. -/
theorem codeRead_eq_of_bits {s : State} {n code : Nat} (hlt : code < 2 ^ n)
    (h : ∀ j, j < n → cinBit s.env.cin (s.inf.ipos.toNat + j) = code.testBit (n - 1 - j)) : codeRead s n = code := by
  refine Nat.eq_of_testBit_eq fun i => ?_
  by_cases hi : i < n
  · have hbit := (codeRead_testBit s (show n - 1 - i < n by omega)).trans (h (n - 1 - i) (by omega))
    rwa [show n - 1 - (n - 1 - i) = i by omega] at hbit
  · have hpow : 2 ^ n ≤ 2 ^ i := Nat.pow_le_pow_right (by decide) (not_lt.1 hi)
    rw [Nat.testBit_lt_two_pow ((codeRead_lt s n).trans_le hpow), Nat.testBit_lt_two_pow (hlt.trans_le hpow)]

/-! ### DecodeSym, one bit at a time (R133) -/

/-- How a reading ends that runs out of delivered bits: with TRUNCATED after the end of the stream, else it waits (R42, R58). -/
def shortStop (s : State) : Stop := if s.env.cinEnd then .raise .truncated else .starve

theorem hasBits_mono {m n : Nat} {s : State} (hmn : m ≤ n) (h : hasBits n s = true) : hasBits m s = true := by
  rw [hasBits_iff] at h ⊢
  omega

theorem hasBits_eq_false_iff (n : Nat) (s : State) :
    hasBits n s = false ↔ 8 * s.env.cin.length < s.inf.ipos.toNat + n := by
  rw [← Bool.not_eq_true, hasBits_iff, not_le]

theorem readBits_short {n : Nat} {s : State} (h0 : 0 < n) (h : hasBits n s = false) :
    readBits n s = .error (shortStop s) := by
  simp only [readBits, h, h0.ne', Bool.false_eq_true, or_self, if_false, shortStop]

/-- How a step ends that runs out of delivered bits: with the trap, or it waits for the source (R58, R373). -/
def shortResult (s : State) : Result := if s.env.cinEnd then raiseDecode .truncated s else .fault .awaitSource

theorem andThen_short {α : Type} (s : State) (k : α → Result) :
    andThen s (.error (shortStop s)) k = shortResult s := by
  unfold shortStop shortResult
  split <;> rfl

/-- `DecodeSym` when `l` bits have been read and have not been found to be a code, with `fuel` more bits to read at most. -/
def decodeOn (lens : List Nat) (fuel l : Nat) (s : State) : Except Stop (Nat × State) :=
  decodeSymFrom lens fuel (l + 1) (codeRead s l) (firstCode lens (l + 1)) (advance l s)

theorem decodeSym_eq_decodeOn (lens : List Nat) (s : State) : decodeSym lens s = decodeOn lens 15 0 s := by
  rw [decodeOn, advance_zero]
  rfl

section
variable {lens : List Nat} {fuel l : Nat} {s : State} (hc : 8 * s.env.cin.length < 2 ^ 64)
include hc

theorem hasBits_advance_one (hl : hasBits l s = true) : hasBits 1 (advance l s) = hasBits (l + 1) s := by
  have hpos := advance_ipos l s hc hl
  rw [Bool.eq_iff_iff, hasBits_iff, hasBits_iff, hpos, advance_env, Nat.add_assoc]

/-- The next bit extends the code read. -/
theorem readBits_one_advance (h : hasBits (l + 1) s = true) :
    readBits 1 (advance l s)
      = .ok (bitNat (cinBit s.env.cin (s.inf.ipos.toNat + l)), advance (l + 1) s) := by
  have hl := hasBits_mono (Nat.le_succ l) h
  have hpos := advance_ipos l s hc hl
  rw [readBits_eq ((hasBits_advance_one hc hl).trans h), advance_advance, nextBits, hpos]
  rfl

theorem decodeOn_short (hl : hasBits l s = true) (h : hasBits (l + 1) s = false) :
    decodeOn lens (fuel + 1) l s = .error (shortStop s) := by
  have hr := readBits_short (by decide) ((hasBits_advance_one hc hl).trans h)
  simp only [decodeOn, decodeSymFrom, hr]
  rfl

theorem decodeOn_accept {sym : Nat} (h : hasBits (l + 1) s = true)
    (hsym : (symbolsOfLength lens (l + 1))[codeRead s (l + 1) - firstCode lens (l + 1)]? = some sym) :
    decodeOn lens (fuel + 1) l s = .ok (sym, advance (l + 1) s) := by
  rw [codeRead] at hsym
  simp only [decodeOn, decodeSymFrom, readBits_one_advance hc h, hsym]

theorem decodeOn_reject (h : hasBits (l + 1) s = true)
    (hnone : (symbolsOfLength lens (l + 1))[codeRead s (l + 1) - firstCode lens (l + 1)]? = none) :
    decodeOn lens (fuel + 1) l s = decodeOn lens fuel (l + 1) s := by
  rw [codeRead] at hnone
  simp only [decodeOn, decodeSymFrom, readBits_one_advance hc h, hnone]
  rfl

/-- Once the stream continues with the code of `sym`, no shorter beginning of the code is accepted and the whole is. -/
theorem decodeOn_codeRead {sym d : Nat} (hbits : hasBits (l + (d + 1)) s = true)
    (hsym : lens[sym]? = some (l + (d + 1))) (hcode : codeRead s (l + (d + 1)) = canonCode lens sym) (hfuel : d < fuel) :
    decodeOn lens fuel l s = .ok (sym, advance (l + (d + 1)) s) := by
  induction d generalizing l fuel with
  | zero =>
    obtain ⟨fuel, rfl⟩ : ∃ f, fuel = f + 1 := ⟨fuel - 1, by omega⟩
    refine decodeOn_accept hc hbits (symbolsOfLength_getElem?_eq_some.2 ⟨hsym, ?_⟩)
    rw [hcode, canonCode_of_length hsym, Nat.add_sub_cancel_left]
  | succ d ih =>
    obtain ⟨fuel, rfl⟩ : ∃ f, fuel = f + 1 := ⟨fuel - 1, by omega⟩
    have hassoc : l + (d + 1 + 1) = l + 1 + (d + 1) := by omega
    rw [hassoc] at hbits hsym hcode ⊢
    have hone : hasBits (l + 1) s = true := hasBits_mono (Nat.le_add_right _ _) hbits
    have hbegin : firstCode lens (l + 1) + lengthCount lens (l + 1) ≤ codeRead s (l + 1) := by
      rw [← codeRead_div s (l + 1) (d + 1), hcode, Nat.le_div_iff_mul_le (by positivity)]
      exact (firstCode_mul_le lens l d).trans (canonCode_bounds hsym).1
    rw [decodeOn_reject hc hone (symbolsOfLength_getElem?_eq_none.2 (by omega))]
    exact ih hbits hsym hcode (by omega)

end

end Sys2Proof.Machine

open Sys2Proof Sys2Proof.Machine

/-- Settles O5: the code space bounds a code by its length, so the bits read are the code, and `DecodeSym` accepts the
whole of it first. -/
theorem decodeSymReadsCanonicalCodes : Obligations.DecodeSymReadsCanonicalCodes := by
  intro lens sym k s hlens hkraft hsym h0 hc hbits hcode
  have h15 : k ≤ 15 := hlens k (List.mem_of_getElem? hsym)
  have hread := codeRead_eq_of_bits (canonCode_lt hkraft hsym h0 h15) hcode
  obtain ⟨d, rfl⟩ : ∃ d, k = 0 + (d + 1) := ⟨k - 1, by omega⟩
  rw [decodeSym_eq_decodeOn]
  exact decodeOn_codeRead hc ((hasBits_iff _ s).2 hbits) hsym hread (by omega)

/-- Settles O4: the three ways out of `ReadBits`, and bit by bit the number that it answers. -/
theorem readBitsTakesTheNextBits : Obligations.ReadBitsTakesTheNextBits := by
  intro n s _ hc
  refine ⟨fun h => ?_, fun h h0 hend => ?_, readBits_zero s⟩
  · have hb := (hasBits_iff n s).2 h
    exact ⟨_, _, readBits_eq hb, nextBits_lt n s, fun i hi => bitsAt_testBit _ _ n i hi, advance_ipos n s hc hb, rfl⟩
  · rw [readBits_short h0 ((hasBits_eq_false_iff n s).2 h), shortStop, if_pos hend]
end

section
/-! SUPPORT. The three rows that emit a byte (R103, R142, R148), and where the byte goes in the middle of a row (R140, R222). -/

namespace Sys2Proof.Machine

/-- The index that a match copy reads is `WPOS − MATCH_DIST` modulo WSIZE (R48). -/
theorem matchIndex_eq (s : State) :
    matchIndex s = (((s.inf.wpos : Int) - s.inf.matchDist.toNat) % s.params.wsize).toNat := by
  have hpos := wsize_pos s.params
  have hmod := (Nat.mod_lt s.inf.matchDist.toNat hpos).le
  unfold matchIndex
  generalize s.params.wsize = size at hpos hmod ⊢
  generalize s.inf.matchDist.toNat = dist at hmod ⊢
  have hshift : ((s.inf.wpos + (size - dist % size) : Nat) : Int)
      = ((s.inf.wpos : Int) - dist) + size * (1 + (dist / size : Nat)) := by
    have hdiv : ((dist % size : Nat) : Int) + size * (dist / size : Nat) = dist := by
      exact_mod_cast Nat.mod_add_div dist size
    push_cast [Nat.cast_sub hmod] at hdiv ⊢
    linarith
  rw [← Int.toNat_natCast ((s.inf.wpos + (size - dist % size)) % size), Int.natCast_emod, hshift,
    Int.add_mul_emod_self_left]

/-- A counter's last decrement is the one from 1. -/
theorem sub_one_eq_zero_iff {w : Nat} (x : BitVec w) : x - 1 = 0 ↔ x = 1 := sub_eq_zero

/-- What a row that emits a byte does is to emit it. -/
theorem exec_of_emits {i : Instr} {b : Byte} {s u : State} (h : Emits i b s u) : exec i s = emit b u := by
  rcases h with ⟨rfl, rfl⟩ | ⟨rfl, _, hbits, rfl, rfl⟩ | ⟨rfl, _, _, _, rfl, rfl⟩
  · rfl
  · simp only [← sub_one_eq_zero_iff s.inf.storedRem]
    show execStoredByte s = _
    rw [execStoredByte, readBits_eq ((hasBits_iff 8 s).2 hbits), andThen_ok]
    exact congrArg (emit _) (ite_setInf_infState (s.inf.storedRem - 1 = 0) s
      { (advance 8 s).inf with storedRem := s.inf.storedRem - 1 } s.inf.afterBlock s.inf.infState)
  · simp only [← sub_one_eq_zero_iff s.inf.matchLen]
    rw [← matchIndex_eq]
    exact congrArg (emit _) (ite_setInf_infState (s.inf.matchLen - 1 = 0) s
      { s.inf with matchLen := s.inf.matchLen - 1 } .sym s.inf.infState)

/-- The byte placed in window and row is all that an emission in the middle of a row does. -/
theorem bytePlaced_emittedMidRow (b : Byte) (s : State) : EmittedMidRow b s (bytePlaced b s) where
  window :=
    { inf := rfl
      winAt := by simp [bytePlaced]
      winElse := fun a ha => by simp [bytePlaced, Cells.read_write_ne _ b (Ne.symm ha)]
      prevRow := bytePlaced_prevRow b s
      pal := by simp [bytePlaced]
      pix := rfl
      drv := rfl
      rout := rfl
      env := rfl
      params := rfl }
  flt := rfl
  rowAt := by rw [bytePlaced_curRow, Cells.read_write_same]
  rowElse := fun a ha => by rw [bytePlaced_curRow, Cells.read_write_ne _ b (Ne.symm ha)]

/-- What a row does to INF before it emits leaves FLT. -/
theorem Emits.flt_eq {i : Instr} {b : Byte} {s u : State} (h : Emits i b s u) : u.flt = s.flt := by
  rcases h with ⟨_, rfl⟩ | ⟨_, _, _, _, rfl⟩ | ⟨_, _, _, _, _, rfl⟩ <;> rfl

/-- A stored byte is read before anything is emitted. -/
theorem exec_storedByte_short {s : State} (h : hasBits 8 s = false) : exec .storedByte s = shortResult s := by
  show andThen s (readBits 8 s) _ = _
  rw [readBits_short (by decide) h, andThen_short]

end Sys2Proof.Machine

open Sys2Proof Sys2Proof.Machine

/-- Settles O16: each of the three rows emits its byte, and in the middle of a row the byte is placed and nothing else moves. -/
theorem bytesAreEmittedInMidRow : Obligations.BytesAreEmittedInMidRow := by
  refine ⟨fun i b s u h _ hphase hrx => ⟨bytePlaced b u, ?_, bytePlaced_emittedMidRow b u⟩, fun s hshort hend => ?_⟩
  · rw [exec_of_emits h]
    exact emit_midRow (h.flt_eq ▸ hphase) (h.flt_eq ▸ hrx)
  · rw [exec_storedByte_short ((hasBits_eq_false_iff 8 s).2 hshort), shortResult, if_pos hend]
    rfl
end

section
/-! SUPPORT. What the environment can do to a core that is decoding, short of a reset and of an answer (R297, R302, R305). -/

namespace Sys2Proof.Machine

/-- `t` is `s` but for CMDSTAT and the environment's side, of which PULLED stays. -/
structure CoreHeld (s t : State) : Prop where
  inf : t.inf = s.inf
  flt : t.flt = s.flt
  mem : t.mem = s.mem
  pix : t.pix = s.pix
  rout : t.rout = s.rout
  pulled : t.env.pulled = s.env.pulled
  drv : t.drv = { s.drv with cmdstat := t.drv.cmdstat }

theorem CoreHeld.refl (s : State) : CoreHeld s s := ⟨rfl, rfl, rfl, rfl, rfl, rfl, rfl⟩

/-- While the core decodes every command but RESET is illegal (R302 b). -/
theorem exec_decodeCmd_decoding {w : Nat} {s : State} (hd : s.drv.dstate = .decoding) (hw : w % 8 ≠ 1) :
    exec (decodeCmd w) s = invalidCommand s := by
  unfold decodeCmd
  split
  case h_2 h => exact absurd h hw
  case h_3 => exact if_pos (by rw [hd]; decide)
  case h_4 => exact if_pos (by rw [hd]; decide)
  case h_1 | h_5 => rfl

theorem cfgWrite_coreHeld {off : BitVec 11} {data : BitVec 32} {s t : State} (hd : s.drv.dstate = .decoding)
    (ha : (EnvAct.cfgWrite off data).isReset = false) (h : cfgWrite off data s = .next t) : CoreHeld s t := by
  unfold cfgWrite at h
  split at h
  · cases h
  split at h
  · rename_i hoff
    have hw : data.toNat % 8 ≠ 1 := by
      intro hw
      simp [EnvAct.isReset, hoff, hw] at ha
    rw [runWord_cmd, exec_decodeCmd_decoding hd (by rwa [Nat.mod_mod])] at h
    cases h
    exact ⟨rfl, rfl, rfl, rfl, rfl, rfl, rfl⟩
  · rw [cfgStore_closed _ _ (by rw [hd]; decide) (by rw [hd]; decide)] at h
    cases h
    exact .refl s

theorem sourceByte_coreHeld {b : Byte} {s t : State} (h : sourceByte b s = .next t) : CoreHeld s t := by
  unfold sourceByte at h
  split at h
  · cases h; exact .refl s
  split at h
  · cases h
  · cases h; exact ⟨rfl, rfl, rfl, rfl, rfl, rfl, rfl⟩

/-- Only a reset or an answer does more to a decoding core than write CMDSTAT. -/
theorem envAct_coreHeld {a : EnvAct} {s t : State} (hd : s.drv.dstate = .decoding) (hreset : a.isReset = false)
    (hanswer : ∀ bit, a ≠ .answer bit) (h : envAct a s = .next t) : CoreHeld s t := by
  cases a with
  | hwReset => cases hreset
  | cfgWrite off data => exact cfgWrite_coreHeld hd hreset h
  | cfgRead off =>
    simp only [envAct, cfgRead] at h
    split at h
    · cases h
    · cases h; exact ⟨rfl, rfl, rfl, rfl, rfl, rfl, rfl⟩
  | cinByte b => exact sourceByte_coreHeld h
  | cinEos => cases h; exact ⟨rfl, rfl, rfl, rfl, rfl, rfl, rfl⟩
  | answer bit => exact absurd rfl (hanswer bit)

/-- The core takes no step while a row is pending (R297). -/
theorem coreTurn_ne_next_of_pending {s : State} (hp : s.drv.rowPending = true) (t : State) : coreTurn s ≠ .next t := by
  intro h
  obtain ⟨_, hp', _⟩ := coreTurn_next h
  rw [hp] at hp'
  cases hp'

end Sys2Proof.Machine

open Sys2Proof Sys2Proof.Machine

/-- Settles O53: the core has no turn while a row is pending, so the step is the queued action, which is no reset or answer. -/
theorem pendingRowHoldsTheCore : Obligations.PendingRowHoldsTheCore := by
  intro s t n a rest hd hp hq hreset hanswer hstep
  rcases step_next hstep with ⟨_, _, hturn⟩ | ⟨_, _, _, t0, _, _, hturn, _⟩ | ⟨n', a', rest', hq', _, hact, _⟩
  · exact absurd hturn (coreTurn_ne_next_of_pending hp t)
  · exact absurd hturn (coreTurn_ne_next_of_pending hp t0)
  · rw [hq] at hq'
    cases hq'
    obtain ⟨hinf, hflt, hmem, hpix, hrout, hpulled, hdrv⟩ :=
      envAct_coreHeld (s := s.setInputs rest) hd hreset hanswer hact
    exact ⟨hinf, hflt, hmem, hpix, hrout, hpulled, hdrv⟩
end

section
/-! SUPPORT. Every row, command, answer and port access keeps the memories in canonical form (R47, R334), from every state. -/

namespace Sys2Proof.Machine

/-- If the result is a next state, its memories are in canonical form. -/
def CanonicalNext (r : Result) : Prop := ∀ t, r = .next t → t.mem.wf = true

theorem canonicalNext_next {s : State} (h : s.mem.wf = true) : CanonicalNext (.next s) := by
  rintro t ⟨⟩
  exact h

theorem canonicalNext_refused (r : Refusal) : CanonicalNext (.refused r) := by
  rintro t ⟨⟩

theorem canonicalNext_raiseDecode {s : State} (c : Cause) (h : s.mem.wf = true) : CanonicalNext (raiseDecode c s) :=
  canonicalNext_next (freeMem_wf _ _ _ h)

theorem canonicalNext_raiseUnsupported {s : State} (h : s.mem.wf = true) : CanonicalNext (raiseUnsupported s) :=
  canonicalNext_next (freeMem_wf _ _ _ h)

theorem canonicalNext_andThen {α : Type} {s : State} {r : Except Stop α} {k : α → Result} (h : s.mem.wf = true)
    (hk : ∀ a, r = .ok a → CanonicalNext (k a)) : CanonicalNext (andThen s r k) := by
  intro t ht
  rcases andThen_next ht with ⟨a, ha, hka⟩ | ⟨c, _, rfl⟩
  · exact hk a ha t hka
  · exact freeMem_wf _ _ _ h

/-! ### Emitting a byte -/

theorem canonicalNext_runTag {s : State} (b : Byte) (h : s.mem.wf = true) : CanonicalNext (runTag (decodeFtag b) s) := by
  rw [runTag_decodeFtag]
  split
  · exact canonicalNext_next h
  · exact canonicalNext_raiseDecode _ h

theorem canonicalNext_runPixel {s : State} (ct bd : Byte) (h : s.mem.wf = true) :
    CanonicalNext (runPixel (decodePixfmt ct bd) s) := by
  rcases runPixel_cases ct bd s with ⟨px, hrow⟩ | hrow <;> rw [hrow]
  · exact canonicalNext_next h
  · exact canonicalNext_raiseUnsupported h

theorem windowPush_wf {s : State} (b : Byte) (h : s.mem.wf = true) : (windowPush b s).mem.wf = true := by
  obtain ⟨hwin, h0, h1, hp⟩ := (Memory.wf_iff _).1 h
  exact (Memory.wf_iff _).2 ⟨Cells.wf_write _ _ _ hwin, h0, h1, hp⟩

theorem curRow_wf {s : State} (h : s.mem.wf = true) : s.curRow.wf = true := Memory.wf_rowbuf _ h

theorem setCurRow_wf {s : State} {r : Cells 8} (h : s.mem.wf = true) (hr : r.wf = true) : (s.setCurRow r).mem.wf = true :=
  Memory.wf_setRowbuf _ h hr

theorem bytePlaced_wf {s : State} (b : Byte) (h : s.mem.wf = true) : (bytePlaced b s).mem.wf = true :=
  setCurRow_wf (windowPush_wf b h) (Cells.wf_write _ _ _ (curRow_wf h))

theorem canonicalNext_emit {s : State} (b : Byte) (h : s.mem.wf = true) : CanonicalNext (emit b s) := by
  cases hphase : s.flt.rphase with
  | tag =>
    rw [emit_tag hphase]
    exact canonicalNext_runTag b (windowPush_wf b h)
  | data =>
    by_cases hx : s.flt.rx + 1 = s.flt.pstride
    · rw [emit_lastByte hphase hx]
      have hplaced : (bytePlaced b s).mem.wf = true := bytePlaced_wf b h
      exact canonicalNext_runPixel _ _ (setCurRow_wf hplaced (reconstruct_wf _ _ _ _ _ (curRow_wf hplaced)))
    · rw [emit_midRow hphase hx]
      exact canonicalNext_next (bytePlaced_wf b h)

/-! ### Reading the stream -/

theorem canonicalNext_readBits {n : Nat} {s : State} {k : Nat × State → Result} (h : s.mem.wf = true)
    (hk : ∀ v, CanonicalNext (k (v, advance n s))) : CanonicalNext (andThen s (readBits n s) k) := by
  refine canonicalNext_andThen h fun ⟨v, s1⟩ hr => ?_
  obtain ⟨rfl, _, _⟩ := readBits_takes hr
  exact hk v

theorem canonicalNext_execZhdr {s : State} (cmf flg : Byte) (h : s.mem.wf = true) :
    CanonicalNext (execZhdr cmf flg s) := by
  unfold execZhdr
  iterate 4
    split
    · exact canonicalNext_raiseDecode _ h
  exact canonicalNext_next h

theorem canonicalNext_execStoredHdr {s : State} (h : s.mem.wf = true) : CanonicalNext (execStoredHdr s) := by
  refine canonicalNext_andThen h fun ⟨len, s1⟩ hr => ?_
  obtain ⟨rfl, _, _⟩ := readStoredHdr_takes hr
  refine canonicalNext_next ?_
  split <;> exact h

theorem canonicalNext_execStoredByte {s : State} (h : s.mem.wf = true) : CanonicalNext (execStoredByte s) := by
  refine canonicalNext_readBits h fun v => canonicalNext_emit _ ?_
  split <;> exact h

theorem canonicalNext_execDynHdr {s : State} (h : s.mem.wf = true) : CanonicalNext (execDynHdr s) := by
  refine canonicalNext_andThen h fun s1 hr => ?_
  obtain ⟨_, _, _, _, _, _, _, _, _, rfl⟩ := readDynHdr_takes hr
  exact canonicalNext_next h

theorem canonicalNext_completeTables {s : State} (h : s.mem.wf = true) : CanonicalNext (completeTables s) := by
  unfold completeTables
  dsimp only
  split
  · exact canonicalNext_raiseDecode _ h
  · exact canonicalNext_andThen h fun _ _ => canonicalNext_andThen h fun _ _ => canonicalNext_next h

theorem canonicalNext_clAppend {s : State} (rep : Nat) (v : BitVec 4) (h : s.mem.wf = true) :
    CanonicalNext (clDone (appendLens rep v s)) := by
  obtain ⟨lens, happ⟩ := appendLens_eq rep v s
  rw [happ, clDone]
  split
  · exact canonicalNext_completeTables h
  · exact canonicalNext_next h

theorem canonicalNext_clRepeat {s : State} (base n : Nat) (v : BitVec 4) (h : s.mem.wf = true) :
    CanonicalNext (clRepeat base n v s) := by
  refine canonicalNext_readBits h fun e => ?_
  dsimp only
  split
  · exact canonicalNext_raiseDecode _ h
  · exact canonicalNext_clAppend _ _ h

theorem canonicalNext_execCl16 {s : State} (h : s.mem.wf = true) : CanonicalNext (execCl16 s) := by
  unfold execCl16
  split
  · exact canonicalNext_raiseDecode _ h
  · exact canonicalNext_clRepeat _ _ _ h

theorem canonicalNext_lengthSymbol {s : State} (base n : Nat) (h : s.mem.wf = true) :
    CanonicalNext (lengthSymbol base n s) :=
  canonicalNext_readBits h fun _ => canonicalNext_next h

theorem canonicalNext_distanceSymbol {s : State} (base n : Nat) (h : s.mem.wf = true) :
    CanonicalNext (distanceSymbol base n s) := by
  refine canonicalNext_readBits h fun e => ?_
  dsimp only
  split
  · exact canonicalNext_raiseDecode _ h
  · exact canonicalNext_next h

theorem canonicalNext_execMatchByte {s : State} (h : s.mem.wf = true) : CanonicalNext (execMatchByte s) := by
  refine canonicalNext_emit _ ?_
  split <;> exact h

/-! ### Commands and answers -/

theorem canonicalNext_invalidCommand {s : State} (h : s.mem.wf = true) : CanonicalNext (invalidCommand s) :=
  canonicalNext_next h

theorem canonicalNext_execCommitHeader {s : State} (h : s.mem.wf = true) : CanonicalNext (execCommitHeader s) := by
  by_cases hd : s.drv.dstate = .uninit
  · rcases execCommitHeader_cases hd with hc | ⟨_, hc⟩ <;> rw [hc]
    · exact canonicalNext_raiseUnsupported h
    · unfold commitConverted
      split
      · exact canonicalNext_next h
      · exact canonicalNext_raiseUnsupported h
  · rw [execCommitHeader, if_pos hd]
    exact canonicalNext_invalidCommand h

theorem canonicalNext_execStart {s : State} (h : s.mem.wf = true) : CanonicalNext (execStart s) := by
  unfold execStart
  split
  · exact canonicalNext_invalidCommand h
  · exact canonicalNext_next (startPass_memory_wf _ h)

theorem rowAdvance_wf {s : State} (h : s.mem.wf = true) : (rowAdvance s).mem.wf = true := by
  obtain ⟨s1, rfl, ⟨_, hadv⟩ | ⟨_, _, hadv⟩ | ⟨_, _, q, _, hadv⟩⟩ := rowAdvance_cases s <;> rw [hadv]
  · exact h
  · exact h
  · exact startPass_memory_wf q h

theorem canonicalNext_execAnswerContinue {s : State} (h : s.mem.wf = true) : CanonicalNext (execAnswerContinue s) := by
  unfold execAnswerContinue
  split
  · exact canonicalNext_next (rowAdvance_wf h)
  · exact canonicalNext_next h

theorem canonicalNext_execAnswerStop {s : State} (h : s.mem.wf = true) : CanonicalNext (execAnswerStop s) := by
  unfold execAnswerStop
  split <;> exact canonicalNext_next h

/-! ### All rows -/

theorem canonicalNext_exec (i : Instr) {s : State} (h : s.mem.wf = true) : CanonicalNext (exec i s) := by
  cases i with
  | zhdr cmf flg => exact canonicalNext_execZhdr cmf flg h
  | blkStored final | blkFixed final | blkDynamic final => exact canonicalNext_next h
  | blkReserved final => exact canonicalNext_raiseDecode _ h
  | storedHdr => exact canonicalNext_execStoredHdr h
  | storedByte => exact canonicalNext_execStoredByte h
  | dynHdr => exact canonicalNext_execDynHdr h
  | cl0 | cl1 | cl2 | cl3 | cl4 | cl5 | cl6 | cl7 | cl8 | cl9 | cl10 | cl11 | cl12 | cl13 | cl14 | cl15 =>
    exact canonicalNext_clAppend 1 _ h
  | cl16 => exact canonicalNext_execCl16 h
  | cl17 | cl18 => exact canonicalNext_clRepeat _ _ _ h
  | lit b => exact canonicalNext_emit b h
  | eob => exact canonicalNext_next h
  | len257 | len258 | len259 | len260 | len261 | len262 | len263 | len264 | len265 | len266 | len267 | len268 | len269
  | len270 | len271 | len272 | len273 | len274 | len275 | len276 | len277 | len278 | len279 | len280 | len281 | len282
  | len283 | len284 | len285 =>
    dsimp only [exec]
    exact canonicalNext_lengthSymbol _ _ h
  | dist0 | dist1 | dist2 | dist3 | dist4 | dist5 | dist6 | dist7 | dist8 | dist9 | dist10 | dist11 | dist12 | dist13
  | dist14 | dist15 | dist16 | dist17 | dist18 | dist19 | dist20 | dist21 | dist22 | dist23 | dist24 | dist25 | dist26
  | dist27 | dist28 | dist29 =>
    dsimp only [exec]
    exact canonicalNext_distanceSymbol _ _ h
  | ll286 | ll287 | dist30 | dist31 | endStep => exact canonicalNext_raiseDecode _ h
  | matchByte => exact canonicalNext_execMatchByte h
  | filtNone | filtSub | filtUp | filtAvg | filtPaeth => exact canonicalNext_next h
  | filtReserved5 => exact canonicalNext_raiseDecode _ h
  | filtReserved6to7 low | filtReserved8to15 low | filtReserved16to31 low | filtReserved32to63 low
  | filtReserved64to127 low | filtReserved128to255 low => exact canonicalNext_raiseDecode _ h
  | pixG1 | pixG2 | pixG4 | pixG8 | pixRgb8 | pixI1 | pixI2 | pixI4 | pixI8 | pixGa8 | pixRgba8 =>
    exact canonicalNext_next h
  | pixG16 | pixRgb16 | pixGa16 | pixRgba16 => exact canonicalNext_raiseUnsupported h
  | pixOther ct bd => exact canonicalNext_raiseUnsupported h
  | reset => exact canonicalNext_next rfl
  | commitHeader => exact canonicalNext_execCommitHeader h
  | start => exact canonicalNext_execStart h
  | cmdIllegal0 => exact canonicalNext_invalidCommand h
  | cmdIllegal4to7 low => exact canonicalNext_invalidCommand h
  | answerContinue => exact canonicalNext_execAnswerContinue h
  | answerStop => exact canonicalNext_execAnswerStop h

/-! ### Turns -/

theorem canonicalNext_runWord {s : State} (f : Format) (w : Nat) (h : s.mem.wf = true) :
    CanonicalNext (runWord f w fun i => exec i s) := by
  unfold runWord
  split
  · exact canonicalNext_exec _ h
  · exact canonicalNext_refused _

theorem canonicalNext_distanceStep {s : State} (h : s.mem.wf = true) : CanonicalNext (distanceStep s) := by
  refine canonicalNext_andThen h fun ⟨d, s1⟩ hr => ?_
  obtain ⟨_, _, rfl, _⟩ := decodeSym_takes hr
  exact canonicalNext_runWord .dsym d h

theorem coreStep_wf {s t : State} (h : s.mem.wf = true) (hstep : coreStep s = .next t) : t.mem.wf = true := by
  rcases coreStep_next hstep with ⟨c, _, rfl⟩ | ⟨f, w, s1, i, hfetch, _, hrun⟩
  · exact freeMem_wf _ _ _ h
  · obtain ⟨k, rfl, _⟩ := fetchWord_ok hfetch
    have hexec := canonicalNext_exec i (s := advance k s) h
    rcases runElement_next hrun with ⟨hrow, _⟩ | ⟨u, hrow, _, _, hdist⟩
    · exact hexec t hrow
    · exact canonicalNext_distanceStep (hexec u hrow) t hdist

theorem coreTurn_wf {s t : State} (h : s.mem.wf = true) (hturn : coreTurn s = .next t) : t.mem.wf = true := by
  obtain ⟨_, _, u, hstep, rfl⟩ := coreTurn_next hturn
  exact coreStep_wf (t := u) h hstep

theorem writePal_wf {s : State} (i : Nat) (v : BitVec 24) (h : s.mem.wf = true) : (writePal i v s).mem.wf = true := by
  obtain ⟨hwin, h0, h1, hp⟩ := (Memory.wf_iff _).1 h
  unfold writePal
  split
  · exact (Memory.wf_iff _).2 ⟨hwin, h0, h1, Cells.wf_write _ _ _ hp⟩
  · exact h

theorem cfgStore_wf {s : State} (off : Nat) (data : BitVec 32) (h : s.mem.wf = true) :
    (cfgStore off data s).mem.wf = true := by
  have hopen : ∀ (p : Prop) [Decidable p] (u : State), u.mem.wf = true → (if p then u else s).mem.wf = true := by
    intro p _ u hu
    split
    · exact hu
    · exact h
  unfold cfgStore
  split
  · exact writePal_wf _ _ h
  split
  case h_14 => exact h
  all_goals exact hopen _ _ h

theorem canonicalNext_cfgWrite {s : State} (off : BitVec 11) (data : BitVec 32) (h : s.mem.wf = true) :
    CanonicalNext (cfgWrite off data s) := by
  unfold cfgWrite
  split
  · exact canonicalNext_refused _
  split
  · exact canonicalNext_runWord .cmd _ h
  · exact canonicalNext_next (cfgStore_wf _ _ h)

theorem canonicalNext_envAct (a : EnvAct) {s : State} (h : s.mem.wf = true) : CanonicalNext (envAct a s) := by
  cases a with
  | hwReset => exact canonicalNext_next rfl
  | cfgWrite off data => exact canonicalNext_cfgWrite off data h
  | cfgRead off =>
    simp only [envAct, cfgRead]
    split
    · exact canonicalNext_refused _
    · exact canonicalNext_next h
  | cinByte b =>
    simp only [envAct, sourceByte]
    split
    · exact canonicalNext_next h
    split
    · exact canonicalNext_refused _
    · exact canonicalNext_next h
  | cinEos => exact canonicalNext_next h
  | answer bit => exact canonicalNext_runWord .rowans _ h

end Sys2Proof.Machine

open Sys2Proof Sys2Proof.Machine

/-- Settles O57: the core's turn and each action of the environment keep the canonical form. -/
theorem stepKeepsMemoryCanonical : Obligations.StepKeepsMemoryCanonical := by
  intro s t h hstep
  rcases step_next hstep with ⟨_, _, hturn⟩ | ⟨n, a, rest, t0, _, _, hturn, rfl⟩ | ⟨n, a, rest, _, _, hact, _⟩
  · exact coreTurn_wf h hturn
  · exact coreTurn_wf (t := t0) h hturn
  · exact canonicalNext_envAct a (s := s.setInputs rest) h t hact
end

section
/-! SUPPORT. Steps that need more bits than have been delivered (R58): each ends in `shortResult`, whichever reading runs out. -/

namespace Sys2Proof.Machine

/-! ### Fields (R42) -/

theorem FieldShort.hasBits_eq_false {n : Nat} {s : State} (h : FieldShort n s) : hasBits n s = false :=
  (hasBits_eq_false_iff n s).2 h.2

theorem FieldShort.readBits_stops {n : Nat} {s : State} (h : FieldShort n s) : readBits n s = .error (shortStop s) :=
  readBits_short h.1 h.hasBits_eq_false

/-- Once the first of two fields has been read, the second reaches beyond the delivered bits. -/
theorem FieldShort.rest {m n : Nat} {s : State} (hc : 8 * s.env.cin.length < 2 ^ 64) (hm : hasBits m s = true)
    (h : FieldShort (m + n) s) : FieldShort n (advance m s) := by
  have hpos := advance_ipos m s hc hm
  have hshort := h.2
  rw [hasBits_iff] at hm
  unfold FieldShort
  rw [hpos, advance_env]
  omega

/-- A field and what follows it run out together if what follows runs out once the field has been read. -/
theorem FieldShort.bind {α : Type} {m n : Nat} {s : State} {k : Nat × State → Except Stop α}
    (hc : 8 * s.env.cin.length < 2 ^ 64) (hm : 0 < m) (h : FieldShort (m + n) s)
    (hk : FieldShort n (advance m s) → k (nextBits m s, advance m s) = .error (shortStop s)) :
    (readBits m s >>= k) = .error (shortStop s) := by
  cases hb : hasBits m s with
  | false => rw [readBits_short hm hb]; rfl
  | true => rw [readBits_eq hb]; exact hk (h.rest hc hb)

theorem readStoredHdr_short {s : State} (hc : 8 * s.env.cin.length < 2 ^ 64) (h : FieldShort 32 (alignByte s)) :
    readStoredHdr s = .error (shortStop s) := by
  refine FieldShort.bind (m := 16) (n := 16) (s := alignByte s) hc (by decide) h fun hnlen => ?_
  exact FieldShort.bind (m := 16) (n := 0) hc (by decide) hnlen fun hnone => absurd hnone.1 (by decide)

theorem readClls_short {order : List Nat} {file : Vector (BitVec 3) 19} {s : State}
    (hc : 8 * s.env.cin.length < 2 ^ 64) (h : FieldShort (3 * order.length) s) :
    readClls order file s = .error (shortStop s) := by
  induction order generalizing file s with
  | nil => exact absurd h.1 (by decide)
  | cons sym rest ih =>
    rw [List.length_cons, Nat.mul_succ, Nat.add_comm] at h
    rw [readClls]
    cases hb : hasBits 3 s with
    | false => rw [readBits_short (by decide) hb]
    | true =>
      rw [readBits_eq hb]
      exact ih hc (h.rest hc hb)

theorem DynShort.readDynHdr_stops {s : State} (hc : 8 * s.env.cin.length < 2 ^ 64) (h : DynShort s) :
    readDynHdr s = .error (shortStop s) := by
  rcases h with hcounts | ⟨hlit, hdist, hclls⟩
  · refine FieldShort.bind (m := 5) (n := 9) hc (by decide) hcounts fun h1 => ?_
    refine FieldShort.bind (m := 5) (n := 4) hc (by decide) h1 fun h2 => ?_
    exact FieldShort.bind (m := 4) (n := 0) hc (by decide) h2 fun h3 => absurd h3.1 (by decide)
  · rw [← advance_advance 5 5] at hclls
    have hsize := nextBits_lt 4 (advance 5 (advance 5 s))
    generalize hlen : nextBits 4 (advance 5 (advance 5 s)) = hclen at hclls hsize
    have horder : (clOrder.take (hclen + 4)).length = hclen + 4 := by
      rw [List.length_take, show clOrder.length = 19 from rfl]
      omega
    rw [show 14 + 3 * (hclen + 4) = 5 + (5 + (4 + 3 * (hclen + 4))) by omega, ← horder] at hclls
    refine FieldShort.bind hc (by decide) hclls fun h1 => FieldShort.bind hc (by decide) h1 fun h2 => ?_
    refine FieldShort.bind hc (by decide) h2 fun h3 => ?_
    have hread := readClls_short (file := Vector.replicate 19 0) (s := advance 4 (advance 5 (advance 5 s))) hc h3
    dsimp only
    rw [if_neg (by omega), hlen, hread]
    rfl

/-! ### Codes (R133) -/

/-- No code begins the delivered bits, so `DecodeSym` goes on reading until they run out, which they do before 15 bits. -/
theorem CodeShort.decodeOn_stops {lens : List Nat} {fuel l : Nat} {s : State} (hc : 8 * s.env.cin.length < 2 ^ 64)
    (h : CodeShort lens s) (hl : hasBits l s = true) (hfuel : l + fuel = 15)
    (hfirst : firstCode lens (l + 1) ≤ codeRead s l * 2) : decodeOn lens fuel l s = .error (shortStop s) := by
  obtain ⟨hdelivered, hnone⟩ := h
  induction fuel generalizing l with
  | zero =>
    rw [hasBits_iff] at hl
    omega
  | succ fuel ih =>
    cases hb : hasBits (l + 1) s with
    | false => exact decodeOn_short hc hl hb
    | true =>
      have hge : firstCode lens (l + 1) ≤ codeRead s (l + 1) := hfirst.trans (Nat.le_add_right _ _)
      cases hsym : (symbolsOfLength lens (l + 1))[codeRead s (l + 1) - firstCode lens (l + 1)]? with
      | some sym =>
        obtain ⟨hk, hrank⟩ := symbolsOfLength_getElem?_eq_some.1 hsym
        have hcode : canonCode lens sym = codeRead s (l + 1) := by
          rw [canonCode_of_length hk, hrank]
          omega
        obtain ⟨j, hj, hne⟩ := hnone sym (l + 1) hk (Nat.succ_pos l) ((hasBits_iff _ s).1 hb)
        rw [hcode, codeRead_testBit s hj] at hne
        exact absurd rfl hne
      | none =>
        have hcount := symbolsOfLength_getElem?_eq_none.1 hsym
        rw [decodeOn_reject hc hb hsym]
        refine ih hb (by omega) (Nat.mul_le_mul_right 2 ?_)
        rw [if_neg (Nat.succ_ne_zero l)]
        omega

theorem CodeShort.decodeSym_stops {lens : List Nat} {s : State} (hin : InsideStream s) (h : CodeShort lens s) :
    decodeSym lens s = .error (shortStop s) := by
  rw [decodeSym_eq_decodeOn]
  exact h.decodeOn_stops hin.1 ((hasBits_iff 0 s).2 hin.2) rfl (Nat.zero_le _)

/-! ### INF registers other than IPOS -/

section
variable {s : State} {r : Inf} (hr : r.ipos = s.inf.ipos)
include hr

theorem InsideStream.setInf (h : InsideStream s) : InsideStream (s.setInf r) := by
  unfold InsideStream
  rw [State.setInf_inf, hr]
  exact h

theorem FieldShort.setInf {n : Nat} (h : FieldShort n s) : FieldShort n (s.setInf r) := by
  unfold FieldShort
  rw [State.setInf_inf, hr]
  exact h

theorem CodeShort.setInf {lens : List Nat} (h : CodeShort lens s) : CodeShort lens (s.setInf r) := by
  unfold CodeShort
  rw [State.setInf_inf, hr]
  exact h

end

theorem readBits_setInf (n : Nat) (s : State) {r : Inf} (hr : r.ipos = s.inf.ipos) :
    readBits n (s.setInf r) = (readBits n s).map fun a => (a.1, s.setInf { r with ipos := a.2.inf.ipos }) := by
  have hbits : hasBits n (s.setInf r) = hasBits n s := by simp only [hasBits, State.setInf_inf, State.setInf_env, hr]
  have hvalue : nextBits n (s.setInf r) = nextBits n s := by simp only [nextBits, State.setInf_inf, State.setInf_env, hr]
  have hstate : advance n (s.setInf r) = s.setInf { r with ipos := (advance n s).inf.ipos } := by
    simp only [advance, State.setInf_inf, hr]
    rfl
  simp only [readBits, hbits, hvalue, hstate]
  split <;> rfl

/-- `DecodeSym` depends on the stream and on IPOS, and writes nothing but IPOS. -/
theorem decodeSymFrom_setInf (lens : List Nat) (fuel l c first : Nat) (s : State) {r : Inf} (hr : r.ipos = s.inf.ipos) :
    decodeSymFrom lens fuel l c first (s.setInf r)
      = (decodeSymFrom lens fuel l c first s).map fun a => (a.1, s.setInf { r with ipos := a.2.inf.ipos }) := by
  induction fuel generalizing l c first s r with
  | zero => rfl
  | succ fuel ih =>
    rw [decodeSymFrom, decodeSymFrom, readBits_setInf 1 s hr]
    cases hread : readBits 1 s with
    | error e => rfl
    | ok a =>
      obtain ⟨b, s1⟩ := a
      obtain ⟨rfl, _, _⟩ := readBits_takes hread
      dsimp only [Except.map]
      cases (symbolsOfLength lens l)[c * 2 + b - first]? with
      | some sym => rfl
      | none => exact ih (l + 1) _ _ (advance 1 s) (r := { r with ipos := (advance 1 s).inf.ipos }) rfl

theorem decodeSym_setInf (lens : List Nat) (s : State) {r : Inf} (hr : r.ipos = s.inf.ipos) :
    decodeSym lens (s.setInf r)
      = (decodeSym lens s).map fun a => (a.1, s.setInf { r with ipos := a.2.inf.ipos }) :=
  decodeSymFrom_setInf lens 15 1 0 0 s hr

/-! ### The rows of length and distance symbols (R78, R79) -/

theorem exec_lengthRow {k base n : Nat} (h : lengthTable[k]? = some (base, n)) :
    ∃ i, decode .llsym (257 + k) = .ok i ∧ i.isLength = true ∧ ∀ s, exec i s = lengthSymbol base n s := by
  have hk : k < 29 := (List.getElem?_eq_some_iff.1 h).1
  interval_cases k <;> cases h <;> exact ⟨_, rfl, rfl, fun _ => rfl⟩

theorem exec_distanceRow {k base n : Nat} (h : distanceTable[k]? = some (base, n)) :
    ∃ i, decode .dsym k = .ok i ∧ ∀ s, exec i s = distanceSymbol base n s := by
  have hk : k < 30 := (List.getElem?_eq_some_iff.1 h).1
  interval_cases k <;> cases h <;> exact ⟨_, rfl, fun _ => rfl⟩

/-! ### The core's step -/

theorem coreStep_of_fetch_short {s : State} (h : fetchWord s = .error (shortStop s)) : coreStep s = shortResult s := by
  rw [coreStep, h, andThen_short]

/-- A row that runs out of bits ends the step: the distance symbol is not reached. -/
theorem runElement_short {i : Instr} {s s1 : State} (h : exec i s1 = shortResult s) : runElement i s1 = shortResult s := by
  unfold runElement
  rw [h]
  unfold shortResult
  cases s.env.cinEnd with
  | false => rfl
  | true => exact if_neg (by simp)

theorem coreStep_of_row_short {s s1 : State} {f : Format} {w : Nat} {i : Instr} (hf : fetchWord s = .ok (f, w, s1))
    (hi : decode f w = .ok i) (h : exec i s1 = shortResult s) : coreStep s = shortResult s := by
  rw [coreStep_of_fetch hf hi]
  exact runElement_short h

theorem clRepeat_short {base n : Nat} {v : BitVec 4} {s : State} (h : FieldShort n s) :
    clRepeat base n v s = shortResult s := by
  rw [clRepeat, h.readBits_stops, andThen_short]

theorem execCl16_short {s : State} (hidx : s.inf.lidx ≠ 0) (h : FieldShort 2 s) : execCl16 s = shortResult s := by
  rw [execCl16, if_neg hidx, clRepeat_short h]

theorem lengthSymbol_short {base n : Nat} {s : State} (h : FieldShort n s) : lengthSymbol base n s = shortResult s := by
  rw [lengthSymbol, h.readBits_stops, andThen_short]

theorem distanceSymbol_short {base n : Nat} {s : State} (h : FieldShort n s) :
    distanceSymbol base n s = shortResult s := by
  rw [distanceSymbol, h.readBits_stops, andThen_short]

theorem execStoredHdr_short {s : State} (hc : 8 * s.env.cin.length < 2 ^ 64) (h : FieldShort 32 (alignByte s)) :
    execStoredHdr s = shortResult s := by
  rw [execStoredHdr, readStoredHdr_short hc h, andThen_short]

theorem execDynHdr_short {s : State} (hc : 8 * s.env.cin.length < 2 ^ 64) (h : DynShort s) :
    execDynHdr s = shortResult s := by
  rw [execDynHdr, h.readDynHdr_stops hc, andThen_short]

theorem distanceStep_of_code_short {s : State} (h : decodeSym (fileLens s.inf.dLen) s = .error (shortStop s)) :
    distanceStep s = shortResult s := by
  rw [distanceStep, h, andThen_short]

theorem ClShort.coreStep_eq {s : State} (hin : InsideStream s) (hst : s.inf.infState = .clSym) (h : ClShort s) :
    coreStep s = shortResult s := by
  have hfetch : fetchWord s = (decodeSym (fileLens s.inf.clLen) s).map fun r => (.clsym, r.1, r.2) := by
    simp only [fetchWord, hst]
  rcases h with hcode | ⟨sym, s1, hsym, hextra⟩
  · exact coreStep_of_fetch_short (by rw [hfetch, hcode.decodeSym_stops hin]; rfl)
  · rw [hsym] at hfetch
    obtain ⟨k, _, rfl, _⟩ := decodeSym_takes hsym
    rcases hextra with ⟨rfl, hidx, hshort⟩ | ⟨rfl, hshort⟩ | ⟨rfl, hshort⟩
    · exact coreStep_of_row_short (i := .cl16) hfetch rfl (execCl16_short hidx hshort)
    · exact coreStep_of_row_short (i := .cl17) hfetch rfl (clRepeat_short hshort)
    · exact coreStep_of_row_short (i := .cl18) hfetch rfl (clRepeat_short hshort)

/-- The distance half of a step, in a state that differs from where the length ended in registers other than IPOS. -/
theorem DistanceShort.distanceStep_eq {n : Nat} {s : State} {r : Inf} (hc : 8 * s.env.cin.length < 2 ^ 64)
    (h : DistanceShort n s) (hr : r.ipos = (advance n s).inf.ipos) (hd : r.dLen = s.inf.dLen) :
    distanceStep ((advance n s).setInf r) = shortResult s := by
  unfold DistanceShort at h
  rw [← hd] at h
  obtain ⟨hn, hcode | ⟨t, s2, base, dn, hsym, hrow, hshort⟩⟩ := h
  · have hin : InsideStream (advance n s) := by
      refine ⟨hc, ?_⟩
      rw [advance_ipos n s hc ((hasBits_iff n s).2 hn)]
      exact hn
    exact distanceStep_of_code_short ((hcode.setInf hr).decodeSym_stops (hin.setInf hr))
  · obtain ⟨j, hj, hexec⟩ := exec_distanceRow hrow
    obtain ⟨k, _, rfl, _⟩ := decodeSym_takes hsym
    have hmoved := decodeSym_setInf (fileLens r.dLen) (advance n s) hr
    rw [hsym] at hmoved
    rw [distanceStep_of_decode hmoved hj, hexec]
    exact distanceSymbol_short (hshort.setInf (s := advance k (advance n s)) rfl)

theorem SymShort.coreStep_eq {s : State} (hin : InsideStream s) (hst : s.inf.infState = .sym) (hd : s.drv.dstate = .decoding)
    (h : SymShort s) : coreStep s = shortResult s := by
  have hfetch : fetchWord s = (decodeSym (fileLens s.inf.llLen) s).map fun r => (.llsym, r.1, r.2) := by
    simp only [fetchWord, hst]
  rcases h with hcode | ⟨sym, s1, base, n, hsym, h257, hrow, hshort⟩
  · exact coreStep_of_fetch_short (by rw [hfetch, hcode.decodeSym_stops hin]; rfl)
  · rw [hsym] at hfetch
    obtain ⟨k, _, rfl, _⟩ := decodeSym_takes hsym
    obtain ⟨i, hi, hlen, hexec⟩ := exec_lengthRow hrow
    rw [Nat.add_sub_cancel' h257] at hi
    rcases hshort with hfield | hdist
    · exact coreStep_of_row_short hfetch hi ((hexec _).trans (lengthSymbol_short hfield))
    · have hnext : exec i (advance k s) = .next ((advance n (advance k s)).setInf
          { (advance n (advance k s)).inf with matchLen := BitVec.ofNat 9 (base + nextBits n (advance k s)) }) := by
        rw [hexec, lengthSymbol, readBits_eq ((hasBits_iff _ _).2 hdist.1), andThen_ok]
      rw [coreStep_of_fetch hfetch hi, runElement_of_isLength hlen hnext hd]
      exact hdist.distanceStep_eq hin.1 rfl rfl

/-- A step that needs more bits than have been delivered (R58). -/
theorem NeedsBits.coreStep_eq {s : State} (hin : InsideStream s) (hd : s.drv.dstate = .decoding) (h : NeedsBits s) :
    coreStep s = shortResult s := by
  have hc := hin.1
  unfold NeedsBits at h
  split at h
  case h_1 hst | h_2 hst =>
    refine coreStep_of_fetch_short ?_
    simp only [fetchWord, hst, h.readBits_stops]
    rfl
  case h_3 hst =>
    exact coreStep_of_row_short (i := .storedHdr) (by simp only [fetchWord, hst]; rfl) rfl
      (execStoredHdr_short hc h)
  case h_4 hst =>
    exact coreStep_of_row_short (i := .storedByte) (by simp only [fetchWord, hst]; rfl) rfl
      (exec_storedByte_short h.hasBits_eq_false)
  case h_5 hst =>
    exact coreStep_of_row_short (i := .dynHdr) (by simp only [fetchWord, hst]; rfl) rfl
      (execDynHdr_short hc h)
  case h_6 hst => exact ClShort.coreStep_eq hin hst h
  case h_7 hst => exact SymShort.coreStep_eq hin hst hd h
  case h_8 | h_9 => exact h.elim

theorem step_of_noInput {s : State} (hb : s.env.beenReset = true) (hq : s.env.inputs = []) : step s = coreTurn s := by
  unfold step turn
  rw [hq]
  exact if_pos hb

end Sys2Proof.Machine

open Sys2Proof Sys2Proof.Machine

/-- Settles O47: with nothing queued the step is the core's turn, which is a hold in every state of the driver but DECODING, and
there while a row is pending or bits are needed. -/
theorem coreWaitsWhenNotEnabled : Obligations.CoreWaitsWhenNotEnabled := by
  intro s hb hq
  have hturn := step_of_noInput hb hq
  refine ⟨fun hd => ?_, fun hd => ?_, fun hd hp => ?_, fun hd hp hc hi hneeds => ?_⟩
  · rw [hturn, coreTurn]
    rcases hd with hd | hd <;> rw [hd]
  · rw [hturn, coreTurn]
    rcases hd with hd | hd <;> rw [hd]
  · rw [hturn, coreTurn, hd]
    exact if_pos hp
  · have hmoves : CoreMoves s := ⟨hb, hq, hd, hp⟩
    have hstep : coreStep s = shortResult s := NeedsBits.coreStep_eq ⟨hc, hi⟩ hd hneeds
    rw [hturn]
    refine ⟨fun hend => coreTurn_of_fault hmoves ?_, fun hend => coreTurn_of_next hmoves ?_⟩ <;>
      rw [hstep, shortResult, hend] <;> rfl
end

section
/-! SUPPORT. Encoding, one format at a time (R89): decoding the word of a well-formed row gives the row back. -/

namespace Sys2Proof

/-- Cutting a row's word to the row's open bits drops the match bits above them, which are a multiple of 2^n. -/
theorem ofNat_add_toNat {n c : Nat} (hc : 2 ^ n ∣ c) (low : BitVec n) : BitVec.ofNat n (c + low.toNat) = low := by
  refine BitVec.eq_of_toNat_eq ?_
  rw [BitVec.toNat_ofNat, Nat.add_mod, Nat.mod_eq_zero_of_dvd hc, Nat.zero_add, Nat.mod_mod, Nat.mod_eq_of_lt low.isLt]

/-- A word of two bytes, taken apart. -/
theorem ofNat_twoBytes (high low : Byte) :
    BitVec.ofNat 8 (high.toNat * 256 + low.toNat) = low
      ∧ BitVec.ofNat 8 ((high.toNat * 256 + low.toNat) / 256) = high := by
  refine ⟨ofNat_add_toNat (Dvd.intro_left _ rfl) low, ?_⟩
  rw [show (high.toNat * 256 + low.toNat) / 256 = high.toNat by omega, BitVec.ofNat_toNat, BitVec.setWidth_eq]

theorem decode_encode_zhdr (cmf flg : Byte) : decode .zhdr (flg.toNat * 256 + cmf.toNat) = .ok (.zhdr cmf flg) := by
  obtain ⟨hlow, hhigh⟩ := ofNat_twoBytes flg cmf
  rw [decode, if_neg (by simp only [Format.width]; omega), decodeZhdr, hlow, hhigh]

theorem decode_encode_lit (b : Byte) : decode .llsym b.toNat = .ok (.lit b) := by
  rw [decode, if_neg (by simp only [Format.width]; omega), if_pos b.isLt, BitVec.ofNat_toNat, BitVec.setWidth_eq]

theorem decode_ftag {t : Nat} (ht : t < 256) : decode .ftag t = .ok (decodeFtag (BitVec.ofNat 8 t)) :=
  if_neg (not_le.2 ht)

/-- A pair without a row of its own has the row of all other pairs (R278). -/
theorem decodePixfmt_of_wf {ct bd : Byte} (h : (Instr.pixOther ct bd).wf = true) :
    decodePixfmt ct bd = .pixOther ct bd := by
  unfold decodePixfmt
  split
  case h_16 => rfl
  all_goals
    rename_i hct hbd
    simp [Instr.wf, namedPixelPairs, hct, hbd] at h

theorem decode_encode_pixOther {ct bd : Byte} (h : (Instr.pixOther ct bd).wf = true) :
    decode .pixfmt (ct.toNat * 256 + bd.toNat) = .ok (.pixOther ct bd) := by
  obtain ⟨hlow, hhigh⟩ := ofNat_twoBytes ct bd
  rw [decode, if_neg (by simp only [Format.width]; omega), hlow, hhigh, decodePixfmt_of_wf h]

theorem decode_encode_cmdIllegal4to7 : ∀ low : BitVec 2, decode .cmd (4 + low.toNat) = .ok (.cmdIllegal4to7 low) := by
  decide

end Sys2Proof

open Sys2Proof

/-- Settles O1, by the rows: a row without open bits by evaluation, the others by what is left of their word above and below
the open bits. -/
theorem decodeOfEncode : Obligations.DecodeOfEncode := by
  intro i hi
  cases i
  case zhdr cmf flg => exact decode_encode_zhdr cmf flg
  case blkStored final | blkFixed final | blkDynamic final | blkReserved final => cases final <;> rfl
  case lit b => exact decode_encode_lit b
  case filtReserved6to7 low | filtReserved8to15 low | filtReserved16to31 low | filtReserved32to63 low
    | filtReserved64to127 low | filtReserved128to255 low =>
    rw [encode, decode_ftag (by omega)]
    simp (disch := omega) only [decodeFtag, BitVec.toNat_ofNat, Nat.mod_eq_of_lt, if_neg, if_pos, ofNat_add_toNat]
  case pixOther ct bd => exact decode_encode_pixOther hi
  case cmdIllegal4to7 low => exact decode_encode_cmdIllegal4to7 low
  all_goals rfl

/-- Settles O3, by evaluation. -/
theorem sampleWordsDecode : Obligations.SampleWordsDecode :=
  ⟨rfl, rfl, rfl, rfl, rfl, rfl, rfl, rfl, rfl, rfl, rfl⟩
end

section
/-! SUPPORT. The fixed codes (R80), and the tables of lengths and distances (R78, R79): closed forms, and that the rows of the
distance table divide the distances among them. -/

namespace Sys2Proof.Machine

/-! ### The fixed codes (R80) -/

theorem fixedLitLens_eq :
    fixedLitLens = List.replicate 144 8 ++ (List.replicate 112 9 ++ (List.replicate 24 7 ++ List.replicate 8 8)) := by
  decide +kernel

theorem fixedLitLens_getElem? {i : Nat} (hi : i < 288) : fixedLitLens[i]? = some (fixedLitLen i) := by
  simp [fixedLitLens, hi]

theorem lengthCount_fixedLitLens (l : Nat) :
    lengthCount fixedLitLens l = if l = 8 then 152 else if l = 9 then 112 else if l = 7 then 24 else 0 := by
  simp only [lengthCount, fixedLitLens_eq, List.count_append, List.count_replicate, beq_iff_eq]
  split_ifs <;> omega

/-- The first codes of the three lengths in use. -/
theorem firstCode_fixedLitLens :
    firstCode fixedLitLens 7 = 0 ∧ firstCode fixedLitLens 8 = 0x30 ∧ firstCode fixedLitLens 9 = 0x190 := by
  simp [firstCode, lengthCount_fixedLitLens]

theorem count_take_fixedLitLens (i l : Nat) :
    (fixedLitLens.take i).count l = (if 8 = l then min i 144 else 0) + ((if 9 = l then min (i - 144) 112 else 0)
      + ((if 7 = l then min (i - 256) 24 else 0) + (if 8 = l then min (i - 280) 8 else 0))) := by
  simp only [fixedLitLens_eq, List.take_append, List.take_replicate, List.length_replicate, List.count_append,
    List.count_replicate, beq_iff_eq, Nat.sub_sub, Nat.reduceAdd]

/-- Codes are consecutive within each of the four ranges. -/
theorem canonCode_fixedLitLens {i : Nat} (hi : i < 288) :
    canonCode fixedLitLens i = if i < 144 then 0x30 + i else if i < 256 then 0x190 + (i - 144)
      else if i < 280 then i - 256 else 0xC0 + (i - 280) := by
  obtain ⟨h7, h8, h9⟩ := firstCode_fixedLitLens
  rw [canonCode_of_length (fixedLitLens_getElem? hi), count_take_fixedLitLens, fixedLitLen]
  split_ifs <;> simp only [h7, h8, h9] <;> omega

theorem canonCode_fixedDistLens {i : Nat} (hi : i < 32) :
    fixedDistLens[i]? = some 5 ∧ canonCode fixedDistLens i = i := by
  have hlen : fixedDistLens[i]? = some 5 := by rw [fixedDistLens, List.getElem?_replicate, if_pos hi]
  refine ⟨hlen, ?_⟩
  rw [canonCode_of_length hlen, show firstCode fixedDistLens 5 = 0 by decide, fixedDistLens, List.take_replicate,
    List.count_replicate_self, Nat.zero_add, min_eq_left hi.le]

/-! ### The table of distances (R79) -/

/-- The rows are consecutive, without a gap or an overlap: they start at `a`, and each starts after the greatest number that the
row before it expresses. -/
def ConsecutiveRows : Nat → List (Nat × Nat) → Prop
  | _, [] => True
  | a, (base, n) :: rows => base = a ∧ ConsecutiveRows (a + 2 ^ n) rows

/-- The first number after those that the rows express. -/
def rowsEnd (a : Nat) (rows : List (Nat × Nat)) : Nat := rows.foldl (fun b row => b + 2 ^ row.2) a

theorem distanceTable_consecutiveRows : ConsecutiveRows 1 distanceTable := by
  simp [distanceTable, ConsecutiveRows]

/-- `p` expresses `d` (R79, R81): base plus extra field of row `p.1`. -/
def Expresses (rows : List (Nat × Nat)) (d : Nat) (p : Nat × Nat) : Prop :=
  ∃ base n, rows[p.1]? = some (base, n) ∧ p.2 < 2 ^ n ∧ d = base + p.2

theorem expresses_zero_iff {rows : List (Nat × Nat)} {base n d e : Nat} :
    Expresses ((base, n) :: rows) d (0, e) ↔ e < 2 ^ n ∧ d = base + e := by
  simp [Expresses]

theorem expresses_succ_iff {rows : List (Nat × Nat)} {row : Nat × Nat} {d k e : Nat} :
    Expresses (row :: rows) d (k + 1, e) ↔ Expresses rows d (k, e) := by
  simp [Expresses]

theorem ConsecutiveRows.le_of_expresses {a d : Nat} {rows : List (Nat × Nat)} {p : Nat × Nat} (h : ConsecutiveRows a rows)
    (hp : Expresses rows d p) : a ≤ d := by
  induction rows generalizing a p with
  | nil => obtain ⟨_, _, hrow, _⟩ := hp; cases hrow
  | cons row rows ih =>
    obtain ⟨base, n⟩ := row
    obtain ⟨rfl, hrest⟩ := h
    obtain ⟨_ | k, e⟩ := p
    · obtain ⟨_, rfl⟩ := expresses_zero_iff.1 hp
      omega
    · exact (Nat.le_add_right _ _).trans (ih hrest (expresses_succ_iff.1 hp))

/-- Consecutive rows express every number of their range once. -/
theorem ConsecutiveRows.existsUnique_expresses {a d : Nat} {rows : List (Nat × Nat)} (h : ConsecutiveRows a rows)
    (hmin : a ≤ d) (hmax : d < rowsEnd a rows) : ∃! p, Expresses rows d p := by
  induction rows generalizing a with
  | nil => exact absurd hmax (not_lt.2 hmin)
  | cons row rows ih =>
    obtain ⟨base, n⟩ := row
    obtain ⟨rfl, hrest⟩ := h
    by_cases hd : d < base + 2 ^ n
    · refine ⟨(0, d - base), expresses_zero_iff.2 (by omega), fun ⟨k, e⟩ hp => ?_⟩
      cases k with
      | zero =>
        obtain ⟨_, rfl⟩ := expresses_zero_iff.1 hp
        rw [Nat.add_sub_cancel_left]
      | succ k => exact absurd (hrest.le_of_expresses (expresses_succ_iff.1 hp)) (not_le.2 hd)
    · obtain ⟨⟨k, e⟩, hp, huniq⟩ := ih hrest (not_lt.1 hd) hmax
      refine ⟨(k + 1, e), expresses_succ_iff.2 hp, fun ⟨j, e'⟩ hq => ?_⟩
      cases j with
      | zero =>
        obtain ⟨hlt, rfl⟩ := expresses_zero_iff.1 hq
        omega
      | succ j =>
        obtain ⟨rfl, rfl⟩ := Prod.mk.inj (huniq (j, e') (expresses_succ_iff.1 hq))
        rfl

theorem lengthTable_closedForm {k base n : Nat} (h : lengthTable[k]? = some (base, n)) :
    (k < 8 → base = 3 + k ∧ n = 0) ∧ (8 ≤ k → k < 28 → n = k / 4 - 1 ∧ base = 3 + (4 + k % 4) * 2 ^ n)
      ∧ (k = 28 → base = 258 ∧ n = 0) ∧ 3 ≤ base ∧ base + 2 ^ n - 1 ≤ 258 := by
  have hk : k < 29 := (List.getElem?_eq_some_iff.1 h).1
  interval_cases k <;> cases h <;> decide

theorem distanceTable_closedForm {k base n : Nat} (h : distanceTable[k]? = some (base, n)) :
    (k < 4 → base = 1 + k ∧ n = 0) ∧ (4 ≤ k → n = k / 2 - 1 ∧ base = 1 + (2 + k % 2) * 2 ^ n) := by
  have hk : k < 30 := (List.getElem?_eq_some_iff.1 h).1
  interval_cases k <;> cases h <;> decide

end Sys2Proof.Machine

open Sys2Proof Sys2Proof.Machine

/-- Settles O9: the codes of each length are consecutive from its first code. -/
theorem fixedCodeValues : Obligations.FixedCodeValues := by
  refine ⟨fun i hi => fixedLitLens_getElem? hi, fun i hi => ?_, fun i hmin hmax => ?_, fun i hmin hmax => ?_,
    fun i hmin hmax => ?_, fun i hi => canonCode_fixedDistLens hi⟩
  all_goals
    rw [canonCode_fixedLitLens (by omega)]
    split_ifs <;> omega

/-- Settles O21: the two tables row by row, and the distances because the rows of their table are consecutive. -/
theorem lengthAndDistanceTables : Obligations.LengthAndDistanceTables := by
  refine ⟨fun k base n h => lengthTable_closedForm h, fun k base n h => distanceTable_closedForm h, fun d hmin hmax => ?_⟩
  have hend : rowsEnd 1 distanceTable = 32769 := rfl
  exact distanceTable_consecutiveRows.existsUnique_expresses hmin (by omega)
end

section
/-! SUPPORT. Rows that read fields of the compressed stream (R42): the zlib header (R100), the dynamic header (R105), and the
extra fields of length and distance symbols (R145, R147). -/

namespace Sys2Proof.Machine

/-! ### Fields (R42) -/

theorem shortResult_of_end {s : State} (h : s.env.cinEnd = true) :
    shortResult s = .next (trapEntry .decodeError .truncated s) := if_pos h

/-- Two fields read one after the other are one field, the first its low part. -/
theorem bitsAt_add (cin : List Byte) (pos m n : Nat) :
    bitsAt cin pos (m + n) = bitsAt cin pos m + 2 ^ m * bitsAt cin (pos + m) n := by
  induction m generalizing pos with
  | zero => simp [bitsAt]
  | succ m ih =>
    rw [Nat.add_right_comm, bitsAt, ih (pos + 1), bitsAt, pow_succ', show pos + 1 + m = pos + (m + 1) by omega]
    ring

theorem nextBits_add {m : Nat} {s : State} (hc : 8 * s.env.cin.length < 2 ^ 64) (hm : hasBits m s = true) (n : Nat) :
    nextBits (m + n) s = nextBits m s + 2 ^ m * nextBits n (advance m s) := by
  rw [nextBits, bitsAt_add, nextBits, nextBits, advance_ipos m s hc hm, advance_env]

/-- Once the first field has been read, the rest of the bits at hand are still at hand. -/
theorem hasBits_advance {m n : Nat} {s : State} (hc : 8 * s.env.cin.length < 2 ^ 64) (h : hasBits (m + n) s = true) :
    hasBits n (advance m s) = true := by
  have hpos := advance_ipos m s hc (hasBits_mono (Nat.le_add_right m n) h)
  rw [hasBits_iff] at h ⊢
  rw [hpos, advance_env]
  omega

/-! ### The zlib header (R100) -/

/-- The four checks of R100. -/
def ZlibHeaderOk (cmf flg : Byte) : Prop :=
  cmf.toNat % 16 = 8 ∧ cmf.toNat / 16 ≤ 7 ∧ (cmf.toNat * 256 + flg.toNat) % 31 = 0 ∧ flg.getLsbD 5 = false

theorem execZhdr_ok {cmf flg : Byte} (h : ZlibHeaderOk cmf flg) (s : State) :
    execZhdr cmf flg s = .next (s.setInf { s.inf with infState := .blkhdr }) := by
  obtain ⟨hcm, hcinfo, hcheck, hfdict⟩ := h
  rw [execZhdr, if_neg (not_not.2 hcm), if_neg (not_lt.2 hcinfo), if_neg (not_not.2 hcheck), hfdict]
  rfl

theorem execZhdr_not_ok {cmf flg : Byte} (h : ¬ ZlibHeaderOk cmf flg) (s : State) :
    execZhdr cmf flg s = raiseDecode .zlibHeader s := by
  unfold execZhdr
  split_ifs with hcm hcinfo hcheck hfdict
  iterate 4 rfl
  exact absurd ⟨not_not.1 hcm, not_lt.1 hcinfo, not_not.1 hcheck, Bool.eq_false_iff.2 hfdict⟩ h

/-- The word of the zlib header is CMF and then FLG (R71). -/
theorem decode_zhdr_nextBits {s : State} (hc : 8 * s.env.cin.length < 2 ^ 64) (h : hasBits 16 s = true) :
    decode .zhdr (nextBits 16 s)
      = .ok (.zhdr (BitVec.ofNat 8 (nextBits 8 s)) (BitVec.ofNat 8 (nextBits 8 (advance 8 s)))) := by
  rw [← decode_encode_zhdr, nextBits_add (m := 8) hc (hasBits_mono (by decide) h) 8, BitVec.toNat_ofNat, BitVec.toNat_ofNat,
    Nat.mod_eq_of_lt (nextBits_lt 8 s), Nat.mod_eq_of_lt (nextBits_lt 8 _), Nat.add_comm, Nat.mul_comm]
  rfl

theorem coreStep_zhdr {s : State} (hst : s.inf.infState = .zhdr) (hc : 8 * s.env.cin.length < 2 ^ 64)
    (h : hasBits 16 s = true) :
    coreStep s = exec (.zhdr (BitVec.ofNat 8 (nextBits 8 s)) (BitVec.ofNat 8 (nextBits 8 (advance 8 s)))) (advance 16 s) := by
  have hfetch : fetchWord s = .ok (.zhdr, nextBits 16 s, advance 16 s) := by
    simp only [fetchWord, hst, readBits_eq h, Except.map]
  rw [coreStep_of_fetch hfetch (decode_zhdr_nextBits hc h), runElement_of_not_isLength rfl]

theorem coreStep_zhdr_short {s : State} (hst : s.inf.infState = .zhdr) (h : FieldShort 16 s) : coreStep s = shortResult s := by
  refine coreStep_of_fetch_short ?_
  simp only [fetchWord, hst, h.readBits_stops, Except.map]

/-! ### The dynamic header (R105) -/

/-- What reading code-length lengths leaves in the file: the i-th of them at the i-th place of the order, the others as before
(R75, R105). -/
structure CllsRead (order : List Nat) (file file' : Vector (BitVec 3) 19) (s : State) : Prop where
  read : ∀ i sym, order[i]? = some sym → file'.toList[sym]? = some (BitVec.ofNat 3 (nextBits 3 (advance (3 * i) s)))
  kept : ∀ sym, sym ∉ order → file'.toList[sym]? = file.toList[sym]?

theorem readClls_ok {order : List Nat} {file : Vector (BitVec 3) 19} {s : State} (hc : 8 * s.env.cin.length < 2 ^ 64)
    (hnodup : order.Nodup) (hsym : ∀ sym ∈ order, sym < 19) (h : hasBits (3 * order.length) s = true) :
    ∃ file', readClls order file s = .ok (file', advance (3 * order.length) s) ∧ CllsRead order file file' s := by
  induction order generalizing file s with
  | nil => exact ⟨file, by simp [readClls], nofun, fun _ _ => rfl⟩
  | cons sym rest ih =>
    obtain ⟨hnew, hrest⟩ := List.nodup_cons.1 hnodup
    rw [List.length_cons, Nat.mul_succ, Nat.add_comm] at h ⊢
    obtain ⟨file', hread, hwritten, hkept⟩ := ih (file := file.setIfInBounds sym (BitVec.ofNat 3 (nextBits 3 s)))
      (s := advance 3 s) hc hrest (fun x hx => hsym x (.tail _ hx)) (hasBits_advance hc h)
    refine ⟨file', ?_, fun i x hx => ?_, fun x hx => ?_⟩
    · rw [readClls, readBits_eq (hasBits_mono (Nat.le_add_right _ _) h)]
      dsimp only
      rw [hread, advance_advance]
    · cases i with
      | zero =>
        cases hx
        rw [hkept sym hnew]
        simp [hsym]
      | succ i =>
        rw [hwritten i x hx, advance_advance]
        congr 4
        omega
    · obtain ⟨hne, hx⟩ := List.ne_and_not_mem_of_not_mem_cons hx
      rw [hkept x hx]
      simp [hne.symm]

/-- The three counts of a dynamic header (R74). -/
theorem readBits_dynCounts {s : State} (hc : 8 * s.env.cin.length < 2 ^ 64) (h : hasBits 14 s = true) :
    readBits 5 s = .ok (nextBits 5 s, advance 5 s)
      ∧ readBits 5 (advance 5 s) = .ok (nextBits 5 (advance 5 s), advance 10 s)
      ∧ readBits 4 (advance 10 s) = .ok (nextBits 4 (advance 10 s), advance 14 s) := by
  have h5 : hasBits 9 (advance 5 s) = true := hasBits_advance hc h
  have h10 : hasBits 4 (advance 10 s) = true := hasBits_advance hc h
  refine ⟨readBits_eq (hasBits_mono (by decide) h), ?_, ?_⟩
  · rw [readBits_eq (hasBits_mono (by decide) h5), advance_advance]
  · rw [readBits_eq h10, advance_advance]

/-- What a dynamic header writes once its code-length code has passed its check (R105). -/
def dynHdrWritten (hlit hdist hclen : Nat) (file : Vector (BitVec 3) 19) (s : State) : State :=
  s.setInf
    { s.inf with
      nlen := BitVec.ofNat 9 (hlit + 257)
      ndist := BitVec.ofNat 6 (hdist + 1)
      ncode := BitVec.ofNat 5 (hclen + 4)
      clLen := file
      lens := Vector.replicate 316 0
      lidx := 0
      infState := .clSym }

section
variable {s : State} {hlit hdist hclen : Nat} (hc : 8 * s.env.cin.length < 2 ^ 64) (h14 : hasBits 14 s = true)
  (hlit_eq : hlit = nextBits 5 s) (hdist_eq : hdist = nextBits 5 (advance 5 s))
include hc h14 hlit_eq hdist_eq

theorem execDynHdr_dynCounts (hbad : 286 < hlit + 257 ∨ 30 < hdist + 1) :
    execDynHdr s = raiseDecode .dynCounts s := by
  subst hlit_eq hdist_eq
  obtain ⟨h1, h2, h3⟩ := readBits_dynCounts hc h14
  have hread : readDynHdr s = .error (.raise .dynCounts) := by
    simp only [readDynHdr, h1, h2, h3, bind, Except.bind, if_pos hbad]
  rw [execDynHdr, hread, andThen_raise]

/-- With legal counts and its lengths read, the header goes by the check of the code-length code. -/
theorem execDynHdr_of_clls {file : Vector (BitVec 3) 19} {t : State} (hclen_eq : hclen = nextBits 4 (advance 10 s))
    (hlit_le : hlit + 257 ≤ 286) (hdist_le : hdist + 1 ≤ 30)
    (hclls : readClls (clOrder.take (hclen + 4)) (Vector.replicate 19 0) (advance 14 s) = .ok (file, t)) :
    execDynHdr s = andThen s (checkLengths (fileLens file) .cl) fun _ => .next (dynHdrWritten hlit hdist hclen file t) := by
  subst hlit_eq hdist_eq hclen_eq
  obtain ⟨h1, h2, h3⟩ := readBits_dynCounts hc h14
  have hcounts : ¬ (286 < nextBits 5 s + 257 ∨ 30 < nextBits 5 (advance 5 s) + 1) := by omega
  simp only [execDynHdr, readDynHdr, h1, h2, h3, hclls, bind, Except.bind, if_neg hcounts]
  cases checkLengths (fileLens file) .cl with
  | ok => rfl
  | error e => cases e <;> rfl

end

/-- The code-length lengths of a dynamic header (R75, R105): the first `n` places of the order are read, the others are 0. -/
theorem readClls_clOrder {n : Nat} {s : State} (hc : 8 * s.env.cin.length < 2 ^ 64) (hn : n ≤ 19)
    (h : hasBits (3 * n) s = true) :
    ∃ file, readClls (clOrder.take n) (Vector.replicate 19 0) s = .ok (file, advance (3 * n) s)
      ∧ ∀ i, i < 19 → file.toList[clOrder.getD i 0]?
        = some (if i < n then BitVec.ofNat 3 (nextBits 3 (advance (3 * i) s)) else 0) := by
  have hlen : (clOrder.take n).length = n := List.length_take_of_le hn
  have hnodup : clOrder.Nodup := by decide
  have hsym : ∀ sym ∈ clOrder, sym < 19 := by decide
  obtain ⟨file, hread, hwritten, hkept⟩ := readClls_ok (order := clOrder.take n) (file := Vector.replicate 19 0) hc
    (hnodup.sublist (List.take_sublist n clOrder)) (fun x hx => hsym x (List.mem_of_mem_take hx)) (hlen.symm ▸ h)
  rw [hlen] at hread
  refine ⟨file, hread, fun i hi => ?_⟩
  have hplace : clOrder[i]? = some (clOrder.getD i 0) := by
    rw [List.getD_eq_getElem?_getD, List.getElem?_eq_getElem (show i < clOrder.length from hi)]
    rfl
  split
  · next hin => exact hwritten i _ (by rw [List.getElem?_take_of_lt hin, hplace])
  · next hout =>
    have hlater : clOrder.getD i 0 ∈ clOrder.drop n := by
      refine List.mem_of_getElem? (i := i - n) ?_
      rw [List.getElem?_drop, Nat.add_sub_cancel' (not_lt.1 hout), hplace]
    rw [hkept _ fun hmem => List.disjoint_take_drop hnodup le_rfl hmem hlater, Vector.toList_replicate,
      List.getElem?_replicate, if_pos (hsym _ (List.mem_of_getElem? hplace))]

/-! ### Extra fields (R81, R145, R147) -/

theorem lengthSymbol_of_hasBits {n : Nat} {s : State} (h : hasBits n s = true) (base : Nat) :
    lengthSymbol base n s
      = .next ((advance n s).setInf { (advance n s).inf with matchLen := BitVec.ofNat 9 (base + nextBits n s) }) := by
  rw [lengthSymbol, readBits_eq h, andThen_ok]

theorem distanceSymbol_near {base n : Nat} {s : State} (h : hasBits n s = true) (hd : base + nextBits n s ≤ s.inf.hist) :
    distanceSymbol base n s = .next ((advance n s).setInf { (advance n s).inf with
      matchDist := BitVec.ofNat 16 (base + nextBits n s), infState := .matchByte }) := by
  rw [distanceSymbol, readBits_eq h, andThen_ok]
  exact if_neg (not_lt.2 hd)

theorem distanceSymbol_tooFar {base n : Nat} {s : State} (h : hasBits n s = true) (hd : s.inf.hist < base + nextBits n s) :
    distanceSymbol base n s = .next (trapEntry .decodeError .distanceTooFar s) := by
  rw [distanceSymbol, readBits_eq h, andThen_ok]
  exact if_pos hd

end Sys2Proof.Machine

open Sys2Proof Sys2Proof.Machine

/-- Settles O10: the row's checks one by one, and the step on the 16 bits of its word. -/
theorem zlibHeaderIsChecked : Obligations.ZlibHeaderIsChecked := by
  refine ⟨fun cmf flg s => ⟨fun h => execZhdr_ok h s, fun h => execZhdr_not_ok h s⟩, fun s hst hc => ⟨fun h => ?_, fun h hend => ?_⟩⟩
  · exact coreStep_zhdr hst hc ((hasBits_iff 16 s).2 h)
  · rw [coreStep_zhdr_short hst ⟨by decide, h⟩, shortResult_of_end hend]

/-- Settles O13: the counts, then their check, then the code-length lengths, then the check of their code. -/
theorem dynamicHeaderReadsCodeLengths : Obligations.DynamicHeaderReadsCodeLengths := by
  intro s hlit hdist hclen hc hlit_eq hdist_eq hclen_eq
  refine ⟨fun h hend => ?_, fun h hbad => ?_, fun ⟨hlit_le, hdist_le⟩ => ⟨fun h => ?_, fun h14 h hend => ?_⟩⟩
  · exact (execDynHdr_short hc (.inl ⟨by decide, h⟩)).trans (shortResult_of_end hend)
  · exact execDynHdr_dynCounts hc ((hasBits_iff 14 s).2 h) hlit_eq hdist_eq hbad
  · have hn : hclen + 4 ≤ 19 := by
      have := nextBits_lt 4 (advance 10 s)
      omega
    have hall : hasBits (14 + 3 * (hclen + 4)) s = true := (hasBits_iff _ s).2 (by omega)
    have h14 := hasBits_mono (Nat.le_add_right _ _) hall
    obtain ⟨file, hread, hfile⟩ := readClls_clOrder (s := advance 14 s) hc hn (hasBits_advance hc hall)
    have hexec := execDynHdr_of_clls hc h14 hlit_eq hdist_eq hclen_eq hlit_le hdist_le hread
    refine ⟨file, fun i hi => ?_, fun hcheck => ?_, fun c hcheck => ?_⟩
    · rw [hfile i hi, advance_advance]
    · rw [hcheck, advance_advance] at hexec
      exact hexec
    · rw [hcheck] at hexec
      exact hexec
  · refine (execDynHdr_short hc (.inr ⟨?_, ?_, ?_⟩)).trans (shortResult_of_end hend)
    · exact hlit_eq ▸ hlit_le
    · exact hdist_eq ▸ hdist_le
    · exact hclen_eq ▸ ⟨by omega, by omega⟩

/-- Settles O19: all 29 rows are one meaning with the entries of the table. -/
theorem lengthSymbolSetsMatchLength : Obligations.LengthSymbolSetsMatchLength := by
  intro sym base n i s hi hrow h257 _
  obtain ⟨j, hj, _, hexec⟩ := exec_lengthRow hrow
  rw [Nat.add_sub_cancel' h257, hi] at hj
  cases hj
  rw [hexec]
  refine ⟨fun h => lengthSymbol_of_hasBits ((hasBits_iff n s).2 h) base, fun h h0 hend => ?_⟩
  rw [lengthSymbol_short ⟨h0, h⟩, shortResult_of_end hend]

/-- Settles O20: all 30 rows are one meaning with the entries of the table. -/
theorem distanceSymbolSetsMatchDistance : Obligations.DistanceSymbolSetsMatchDistance := by
  intro sym base n i s hi hrow _
  obtain ⟨j, hj, hexec⟩ := exec_distanceRow hrow
  rw [hi] at hj
  cases hj
  rw [hexec]
  refine ⟨fun h => ?_, fun h h0 hend => ?_⟩
  · have hb := (hasBits_iff n s).2 h
    exact ⟨distanceSymbol_near hb, distanceSymbol_tooFar hb⟩
  · rw [distanceSymbol_short ⟨h0, h⟩, shortResult_of_end hend]
end

section
/-! SUPPORT. Every row has a meaning in every state (R334), every number that the core decodes has a row (R85, R89), and which
action a step takes from the queue (R305). -/

namespace Sys2Proof.Machine

/-! ### Rows are never refused (R334) -/

theorem andThen_isRefused {α : Type} {s : State} {r : Except Stop α} {k : α → Result}
    (hk : ∀ a, r = .ok a → (k a).isRefused = false) : (andThen s r k).isRefused = false := by
  rcases r with (c | _) | a
  · rfl
  · rfl
  · exact hk a rfl

theorem ite_isRefused {p : Prop} [Decidable p] {r₁ r₂ : Result} (h₁ : r₁.isRefused = false) (h₂ : r₂.isRefused = false) :
    (if p then r₁ else r₂).isRefused = false := by
  split <;> assumption

theorem emit_isRefused (b : Byte) (s : State) : (emit b s).isRefused = false := by
  obtain ⟨t, ht⟩ := emit_next b s
  rw [ht]
  rfl

theorem completeTables_isRefused (s : State) : (completeTables s).isRefused = false :=
  ite_isRefused rfl (andThen_isRefused fun _ _ => andThen_isRefused fun _ _ => rfl)

theorem clDone_isRefused (s : State) : (clDone s).isRefused = false :=
  ite_isRefused (completeTables_isRefused s) rfl

theorem clRepeat_isRefused (base n : Nat) (v : BitVec 4) (s : State) : (clRepeat base n v s).isRefused = false :=
  andThen_isRefused fun _ _ => ite_isRefused rfl (clDone_isRefused _)

theorem lengthSymbol_isRefused (base n : Nat) (s : State) : (lengthSymbol base n s).isRefused = false :=
  andThen_isRefused fun _ _ => rfl

theorem distanceSymbol_isRefused (base n : Nat) (s : State) : (distanceSymbol base n s).isRefused = false :=
  andThen_isRefused fun _ _ => ite_isRefused rfl rfl

theorem execZhdr_isRefused (cmf flg : Byte) (s : State) : (execZhdr cmf flg s).isRefused = false :=
  ite_isRefused rfl (ite_isRefused rfl (ite_isRefused rfl (ite_isRefused rfl rfl)))

theorem execCommitHeader_isRefused (s : State) : (execCommitHeader s).isRefused = false := by
  by_cases hd : s.drv.dstate = .uninit
  · rcases execCommitHeader_cases hd with hc | ⟨_, hc⟩ <;> rw [hc]
    · rfl
    · exact ite_isRefused rfl rfl
  · rw [execCommitHeader, if_pos hd]
    rfl

theorem exec_isRefused (i : Instr) (s : State) : Result.isRefused (exec i s) = false := by
  cases i
  case zhdr cmf flg => exact execZhdr_isRefused cmf flg s
  case storedHdr | dynHdr =>
    dsimp only [exec]
    exact andThen_isRefused fun _ _ => rfl
  case storedByte => exact andThen_isRefused fun _ _ => emit_isRefused _ _
  case lit | matchByte => exact emit_isRefused _ _
  case cl0 | cl1 | cl2 | cl3 | cl4 | cl5 | cl6 | cl7 | cl8 | cl9 | cl10 | cl11 | cl12 | cl13 | cl14 | cl15 =>
    exact clDone_isRefused _
  case cl16 =>
    dsimp only [exec]
    exact ite_isRefused rfl (clRepeat_isRefused _ _ _ _)
  case cl17 | cl18 => exact clRepeat_isRefused _ _ _ _
  case len257 | len258 | len259 | len260 | len261 | len262 | len263 | len264 | len265 | len266 | len267 | len268 | len269
    | len270 | len271 | len272 | len273 | len274 | len275 | len276 | len277 | len278 | len279 | len280 | len281 | len282
    | len283 | len284 | len285 =>
    dsimp only [exec]
    exact lengthSymbol_isRefused _ _ _
  case dist0 | dist1 | dist2 | dist3 | dist4 | dist5 | dist6 | dist7 | dist8 | dist9 | dist10 | dist11 | dist12 | dist13
    | dist14 | dist15 | dist16 | dist17 | dist18 | dist19 | dist20 | dist21 | dist22 | dist23 | dist24 | dist25 | dist26
    | dist27 | dist28 | dist29 =>
    dsimp only [exec]
    exact distanceSymbol_isRefused _ _ _
  case commitHeader => exact execCommitHeader_isRefused s
  case start | answerContinue | answerStop =>
    dsimp only [exec]
    exact ite_isRefused rfl rfl
  all_goals rfl

/-! ### Words that the core decodes (R85, R89) -/

theorem fetchWord_decodes {s s1 : State} {f : Format} {w : Nat} (h : fetchWord s = .ok (f, w, s1)) :
    ∃ i, decode f w = .ok i := by
  obtain ⟨_, _, _, hw⟩ := fetchWord_ok h
  have hzhdr := nextBits_lt 16 s
  have hblkhdr := nextBits_lt 3 s
  rw [exists_decode_iff]
  split at hw <;> obtain ⟨rfl, -, hw⟩ := hw <;> simp [RowExists, Format.width] <;> omega

theorem distanceSymbol_decodes {s s1 : State} {d : Nat} {v : Vector (BitVec 4) 32} (h : decodeSym (fileLens v) s = .ok (d, s1)) :
    ∃ i, decode .dsym d = .ok i :=
  (exists_decode_iff .dsym d).2 ⟨decodeSym_file_lt h, nofun, nofun, nofun, nofun, nofun⟩

theorem runWord_isRefused {f : Format} {w : Nat} {run : Instr → Result} (hw : ∃ i, decode f w = .ok i)
    (hrun : ∀ i, (run i).isRefused = false) : (runWord f w run).isRefused = false := by
  obtain ⟨i, hi⟩ := hw
  rw [runWord, hi]
  exact hrun i

theorem distanceStep_isRefused (s : State) : (distanceStep s).isRefused = false :=
  andThen_isRefused fun _ h => runWord_isRefused (distanceSymbol_decodes h) fun i => exec_isRefused i _

theorem runElement_isRefused (i : Instr) (s : State) : (runElement i s).isRefused = false := by
  have hexec := exec_isRefused i s
  unfold runElement
  cases hr : exec i s with
  | next t => exact ite_isRefused (distanceStep_isRefused t) rfl
  | fault => rfl
  | refused => rw [hr] at hexec; exact hexec

theorem coreStep_isRefused (s : State) : (coreStep s).isRefused = false :=
  andThen_isRefused fun _ h => runWord_isRefused (fetchWord_decodes h) fun i => runElement_isRefused i _

/-! ### The queue (R305; log 5) -/

theorem step_of_due {s : State} {a : EnvAct} {rest : List (Nat × EnvAct)} (hb : s.env.beenReset = true)
    (hq : s.env.inputs = (0, a) :: rest) : step s = envAct a (s.setInputs rest) := by
  have henv : envTurn a (s.setInputs rest) = envAct a (s.setInputs rest) := if_pos (by
    rw [show (s.setInputs rest).env.beenReset = true from hb, Bool.true_or])
  rw [← henv, step, turn, hq]

end Sys2Proof.Machine

open Sys2Proof Sys2Proof.Machine

/-- Settles O48: a turn that does not hold runs one step of the core, whose words have rows and whose rows have a meaning. -/
theorem coreTurnIsNeverRefused : Obligations.CoreTurnIsNeverRefused := by
  intro s
  have hstep := coreStep_isRefused s
  unfold coreTurn
  cases s.drv.dstate with
  | uninit | headerReady | done | error => rfl
  | decoding =>
    refine ite_isRefused rfl ?_
    cases hr : coreStep s with
    | next | fault => rfl
    | refused => rw [hr] at hstep; exact hstep

/-- Settles O46: the step is the queued action, and the word of a port selects the action's row. -/
theorem stepRunsCommandsAndAnswers : Obligations.StepRunsCommandsAndAnswers := by
  intro s rest hb
  refine ⟨fun data hq => ?_, fun hq => ?_, fun hq => ?_, fun hq => ?_⟩ <;> rw [step_of_due hb hq]
  · exact runWord_cmd data _
  · exact runWord_rowans 0 fun i => exec i (s.setInputs rest)
  · exact runWord_rowans 1 fun i => exec i (s.setInputs rest)
  · rfl
end

section
/-! SUPPORT. Block headers (R101, R104, R106), the header of a stored block (R102), and the end of a block (R109). -/

namespace Sys2Proof.Machine

/-! ### Register files (R18) -/

theorem lengthFile_getElem? {w n i : Nat} (f : Nat → BitVec w) (hi : i < n) :
    (lengthFile n f).toList[i]? = some (f i) := by
  simp [lengthFile, hi]

theorem lengthFile_getD {w n i : Nat} (f : Nat → BitVec w) (hi : i < n) : (lengthFile n f).toList.getD i 0 = f i := by
  rw [List.getD_eq_getElem?_getD, lengthFile_getElem? f hi, Option.getD_some]

/-- The fixed literal/length code, its ranges given by their last symbols as in R80. -/
theorem fixedLlLen_getElem? {i : Nat} (hi : i < 288) :
    fixedLlLen.toList[i]? = some (if i ≤ 143 then 8 else if i ≤ 255 then 9 else if i ≤ 279 then 7 else 8) := by
  rw [fixedLlLen, lengthFile_getElem? _ hi, fixedLitLen, apply_ite (BitVec.ofNat 4), apply_ite (BitVec.ofNat 4),
    apply_ite (BitVec.ofNat 4)]
  simp only [← Nat.lt_succ_iff]
  rfl

/-! ### Block headers (R101) -/

/-- The word of a block header is BFINAL and then the two bits of BTYPE (R72). -/
theorem decodeBlkhdr_fields : ∀ b < 2,
    decodeBlkhdr (b + 2 * 0) = .blkStored (b == 1) ∧ decodeBlkhdr (b + 2 * 1) = .blkFixed (b == 1)
      ∧ decodeBlkhdr (b + 2 * 2) = .blkDynamic (b == 1) ∧ decodeBlkhdr (b + 2 * 3) = .blkReserved (b == 1) := by
  decide

theorem coreStep_blkhdr {s : State} (hst : s.inf.infState = .blkhdr) (hc : 8 * s.env.cin.length < 2 ^ 64)
    (h : hasBits 3 s = true) :
    coreStep s = exec (decodeBlkhdr (nextBits 1 s + 2 * nextBits 2 (advance 1 s))) (advance 3 s) := by
  have hfetch : fetchWord s = .ok (.blkhdr, nextBits 3 s, advance 3 s) := by
    simp only [fetchWord, hst, readBits_eq h, Except.map]
  have hrow : decode .blkhdr (nextBits 3 s) = .ok (decodeBlkhdr (nextBits 3 s)) := if_neg (not_le.2 (nextBits_lt 3 s))
  have hlen : (decodeBlkhdr (nextBits 3 s)).isLength = false :=
    (by decide : ∀ w < 8, (decodeBlkhdr w).isLength = false) _ (nextBits_lt 3 s)
  have hword : nextBits 3 s = nextBits 1 s + 2 * nextBits 2 (advance 1 s) :=
    nextBits_add (m := 1) hc (hasBits_mono (by decide) h) 2
  rw [coreStep_of_fetch hfetch hrow, runElement_of_not_isLength hlen, hword]

theorem coreStep_blkhdr_short {s : State} (hst : s.inf.infState = .blkhdr) (h : FieldShort 3 s) :
    coreStep s = shortResult s := by
  refine coreStep_of_fetch_short ?_
  simp only [fetchWord, hst, h.readBits_stops, Except.map]

/-! ### The header of a stored block (R102) -/

theorem alignByte_ipos_eq {s : State} (h : InsideStream s) :
    (alignByte s).inf.ipos.toNat = divUp s.inf.ipos.toNat 8 * 8 := by
  obtain ⟨hc, hi⟩ := h
  have hlt := ((divUp_eight_mul s.inf.ipos.toNat).2 _ hi).trans_lt hc
  simp only [alignByte, State.setInf_inf, BitVec.toNat_ofNat, Nat.mod_eq_of_lt hlt]

/-- With its 32 bits at hand, the reading goes by the complement check. -/
theorem readStoredHdr_of_hasBits {s : State} (hc : 8 * s.env.cin.length < 2 ^ 64) (h : hasBits 32 (alignByte s) = true) :
    readStoredHdr s
      = if nextBits 16 (alignByte s) ≠ nextBits 16 (advance 16 (alignByte s)) ^^^ 0xFFFF then .error (.raise .storedNlen)
        else .ok (nextBits 16 (alignByte s), advance 32 (alignByte s)) := by
  have hlen := readBits_eq (hasBits_mono (m := 16) (by decide) h)
  have hnlen := readBits_eq (hasBits_advance (m := 16) (n := 16) (s := alignByte s) hc h)
  simp only [readStoredHdr, hlen, hnlen, bind, Except.bind, advance_advance]

/-- With LEN and NLEN read, the row sets the counter, and ends the block if nothing is stored. -/
theorem execStoredHdr_of_read {s t : State} {len : Nat} (h : readStoredHdr s = .ok (len, t)) :
    execStoredHdr s = .next (t.setInf { t.inf with
      storedRem := BitVec.ofNat 16 len, infState := if len = 0 then t.inf.afterBlock else .storedByte }) := by
  rw [execStoredHdr, h, andThen_ok]
  exact congrArg _ (ite_setInf_infState (len = 0) t { t.inf with storedRem := BitVec.ofNat 16 len }
    t.inf.afterBlock .storedByte)

theorem execStoredHdr_nlen_wrong {s : State} (hc : 8 * s.env.cin.length < 2 ^ 64) (h : hasBits 32 (alignByte s) = true)
    (hne : nextBits 16 (alignByte s) ≠ nextBits 16 (advance 16 (alignByte s)) ^^^ 0xFFFF) :
    execStoredHdr s = raiseDecode .storedNlen s := by
  rw [execStoredHdr, readStoredHdr_of_hasBits hc h, if_pos hne, andThen_raise]

theorem execStoredHdr_ok {s : State} (hc : 8 * s.env.cin.length < 2 ^ 64) (h : hasBits 32 (alignByte s) = true)
    (heq : nextBits 16 (alignByte s) = nextBits 16 (advance 16 (alignByte s)) ^^^ 0xFFFF) :
    execStoredHdr s = .next ((advance 32 (alignByte s)).setInf { (advance 32 (alignByte s)).inf with
      storedRem := BitVec.ofNat 16 (nextBits 16 (alignByte s))
      infState := if nextBits 16 (alignByte s) ≠ 0 then .storedByte else s.inf.afterBlock }) := by
  rw [execStoredHdr_of_read ((readStoredHdr_of_hasBits hc h).trans (if_neg (not_not.2 heq))), ite_not]
  rfl

/-! ### The end of a block (R109) -/

theorem execEob_eq (s : State) : execEob s = .next (s.setInf { s.inf with infState := s.inf.afterBlock }) := rfl

end Sys2Proof.Machine

open Sys2Proof Sys2Proof.Machine

/-- Settles O11: the four rows one by one, and the step on the two fields of their word. -/
theorem blockHeaderStartsABlock : Obligations.BlockHeaderStartsABlock := by
  refine ⟨fun final s => ⟨rfl, ?_, rfl, rfl⟩, fun s hst hc => ⟨fun h final hfinal => ?_, fun h hend => ?_⟩⟩
  · exact ⟨_, rfl, rfl, fun i hi => fixedLlLen_getElem? hi, fun i hi => lengthFile_getElem? _ hi⟩
  · obtain ⟨hstored, hfixed, hdynamic, hreserved⟩ := decodeBlkhdr_fields (nextBits 1 s) (nextBits_lt 1 s)
    rw [coreStep_blkhdr hst hc ((hasBits_iff 3 s).2 h), hfinal]
    exact ⟨fun ht => by rw [ht, hstored], fun ht => by rw [ht, hfixed], fun ht => by rw [ht, hdynamic],
      fun ht => by rw [ht, hreserved]⟩
  · rw [coreStep_blkhdr_short hst ⟨by decide, h⟩, shortResult_of_end hend]

/-- Settles O12: alignment keeps IPOS inside the stream, and with 32 bits from there the row goes by the complement check. -/
theorem storedHeaderAlignsAndChecks : Obligations.StoredHeaderAlignsAndChecks := by
  rintro s _ hc hi rfl
  refine ⟨⟨alignByte_ipos_eq ⟨hc, hi⟩, rfl⟩, fun h => ?_, fun h hend => ?_⟩
  · have hbits : hasBits 32 (alignByte s) = true := (hasBits_iff 32 _).2 h
    exact ⟨fun hne => execStoredHdr_nlen_wrong hc hbits hne, fun heq => execStoredHdr_ok hc hbits heq⟩
  · exact (execStoredHdr_short hc ⟨by decide, h⟩).trans (shortResult_of_end hend)

/-- Settles O18: the row is the end of a block. -/
theorem endOfBlockSymbolLeavesTheBlock : Obligations.EndOfBlockSymbolLeavesTheBlock := execEob_eq
end

section
/-! SUPPORT. Code-length symbols (R107, R110 to R113): what appending a run does to LENS, that every symbol's row either appends
one length or repeats one, and how the sequence's last length completes the tables (R108). -/

namespace Sys2Proof.Machine

/-! ### Appending to LENS -/

theorem appendLens_lens {rep : Nat} {v : BitVec 4} {s : State} {j : Nat} (hroom : s.inf.lidx.toNat + rep ≤ 316)
    (hj : j < 316) :
    (appendLens rep v s).inf.lens.toList.getD j 0
      = if s.inf.lidx.toNat ≤ j ∧ j < s.inf.lidx.toNat + rep then v else s.inf.lens.toList.getD j 0 := by
  induction rep generalizing s with
  | zero => rw [appendLens, if_neg (by omega)]
  | succ n ih =>
    have hnext : (s.inf.lidx + 1).toNat = s.inf.lidx.toNat + 1 := by bv_omega
    rw [appendLens, ih (by rw [State.setInf_inf, hnext]; omega), State.setInf_inf, hnext]
    rcases eq_or_ne s.inf.lidx.toNat j with rfl | hne
    · simp [hj]
    · have hother : (s.inf.lens.setIfInBounds s.inf.lidx.toNat v).toList.getD j 0 = s.inf.lens.toList.getD j 0 := by
        simp [hne]
      rw [hother]
      exact if_congr (by omega) rfl rfl

/-- A run that fits LENS, appended after `n` extra bits have been consumed. -/
theorem lengthsAppended_appendLens {n rep : Nat} {v : BitVec 4} {s : State} (hroom : s.inf.lidx.toNat + rep ≤ 316) :
    LengthsAppended n rep v s (appendLens rep v (advance n s)) := by
  obtain ⟨lens, happ⟩ := appendLens_eq rep v (advance n s)
  refine ⟨by rw [happ]; rfl, ?_, fun j hj => appendLens_lens hroom hj⟩
  have hlt : s.inf.lidx.toNat + rep < 2 ^ 9 := by omega
  rw [happ, State.setInf_inf, BitVec.toNat_add, BitVec.toNat_ofNat, Nat.add_mod_mod]
  exact Nat.mod_eq_of_lt hlt

section
variable {n rep : Nat} {v : BitVec 4} {s t : State} (h : LengthsAppended n rep v s t)
include h

theorem LengthsAppended.nlen : t.inf.nlen = s.inf.nlen := congrArg (·.inf.nlen) h.state

theorem LengthsAppended.ndist : t.inf.ndist = s.inf.ndist := congrArg (·.inf.ndist) h.state

theorem LengthsAppended.lensTotal : t.inf.lensTotal = s.inf.lensTotal := by
  rw [Inf.lensTotal, h.nlen, h.ndist, Inf.lensTotal]

/-- A trap discards what has been appended (R326). -/
theorem LengthsAppended.raiseDecode_eq (c : Cause) : raiseDecode c t = raiseDecode c s := by
  rw [h.state]
  rfl

theorem LengthsAppended.clDone_eq_next (hmore : s.inf.lidx.toNat + rep < s.inf.lensTotal) : clDone t = .next t :=
  if_neg (by rw [h.lidx, h.lensTotal]; exact hmore.ne)

theorem LengthsAppended.clDone_eq_completeTables (hlast : s.inf.lidx.toNat + rep = s.inf.lensTotal) :
    clDone t = completeTables t :=
  if_pos (by rw [h.lidx, h.lensTotal, hlast])

end

/-! ### The rows of the code-length symbols -/

theorem exec_clLiteralRow {k : Nat} {i : Instr} (hk : k ≤ 15) (h : decode .clsym k = .ok i) (s : State) :
    exec i s = clLiteral (BitVec.ofNat 4 k) s := by
  interval_cases k <;> cases h <;> rfl

/-- A code-length symbol appends one length, or repeats one. -/
theorem AppendsLengths.exec_cases {i : Instr} {s : State} {n rep : Nat} {v : BitVec 4} (h : AppendsLengths i s n rep v) :
    (n = 0 ∧ rep = 1 ∧ exec i s = clLiteral v s)
      ∨ ∃ base, rep = base + nextBits n s ∧ exec i s = clRepeat base n v s := by
  rcases h with ⟨k, hk, hrow, rfl, rfl, rfl⟩ | ⟨rfl, hprev, rfl, hrep, rfl⟩ | ⟨rfl, rfl, hrep, rfl⟩ |
    ⟨rfl, rfl, hrep, rfl⟩
  · exact .inl ⟨rfl, rfl, exec_clLiteralRow hk hrow s⟩
  · exact .inr ⟨3, hrep, if_neg hprev⟩
  · exact .inr ⟨3, hrep, rfl⟩
  · exact .inr ⟨11, hrep, rfl⟩

/-- With its extra field at hand, a repeat goes by the room that is left (R111 to R113). -/
theorem clRepeat_of_hasBits {n : Nat} {s : State} (h : hasBits n s = true) (base : Nat) (v : BitVec 4) :
    clRepeat base n v s
      = if s.inf.lensTotal < s.inf.lidx.toNat + (base + nextBits n s) then raiseDecode .clRepeatOverrun s
        else clDone (appendLens (base + nextBits n s) v (advance n s)) := by
  rw [clRepeat, readBits_eq h, andThen_ok]
  rfl

section
variable {i : Instr} {s : State} {n rep : Nat} {v : BitVec 4} (h : AppendsLengths i s n rep v)
include h

theorem AppendsLengths.exec_eq_clDone (hbits : hasBits n s = true) (hroom : s.inf.lidx.toNat + rep ≤ s.inf.lensTotal) :
    exec i s = clDone (appendLens rep v (advance n s)) := by
  rcases h.exec_cases with ⟨rfl, rfl, hexec⟩ | ⟨base, rfl, hexec⟩ <;> rw [hexec]
  · rw [advance_zero, clLiteral]
  · rw [clRepeat_of_hasBits hbits, if_neg (not_lt.2 hroom)]

theorem AppendsLengths.exec_overrun (hbits : hasBits n s = true) (hidx : s.inf.lidx.toNat < s.inf.lensTotal)
    (hover : s.inf.lensTotal < s.inf.lidx.toNat + rep) : exec i s = raiseDecode .clRepeatOverrun s := by
  rcases h.exec_cases with ⟨_, rfl, _⟩ | ⟨base, rfl, hexec⟩
  · omega
  · rw [hexec, clRepeat_of_hasBits hbits, if_pos hover]

theorem AppendsLengths.exec_short (hshort : FieldShort n s) : exec i s = shortResult s := by
  rcases h.exec_cases with ⟨rfl, _, _⟩ | ⟨base, _, hexec⟩
  · exact absurd hshort.1 (lt_irrefl 0)
  · rw [hexec, clRepeat_short hshort]

end

/-! ### Completing the tables (R108) -/

theorem lensSlice_getD (lens : Vector (BitVec 4) 316) (start n : Nat) {size j : Nat} (hj : j < size) :
    (lensSlice lens start n size).toList.getD j 0 = if j < n then lens.toList.getD (start + j) 0 else 0 :=
  lengthFile_getD _ hj

theorem completeTables_noEob {s : State} (h : s.inf.lens.toList.getD 256 0 = 0) :
    completeTables s = raiseDecode .noEobCode s := if_pos h

theorem completeTables_of_eob {s : State} (h : s.inf.lens.toList.getD 256 0 ≠ 0) :
    completeTables s
      = andThen s (checkLengths (fileLens (lensSlice s.inf.lens 0 s.inf.nlen.toNat 288)) .ll) fun _ =>
        andThen s (checkLengths (fileLens (lensSlice s.inf.lens s.inf.nlen.toNat s.inf.ndist.toNat 32)) .d) fun _ =>
          .next (s.setInf
            { s.inf with
              llLen := lensSlice s.inf.lens 0 s.inf.nlen.toNat 288
              dLen := lensSlice s.inf.lens s.inf.nlen.toNat s.inf.ndist.toNat 32
              infState := .sym }) := if_neg h

end Sys2Proof.Machine

open Sys2Proof Sys2Proof.Machine

/-- Settles O14: every row appends one length or repeats one, and short of the total nothing follows. -/
theorem codeLengthSymbolsAppend : Obligations.CodeLengthSymbolsAppend := by
  refine ⟨fun i n rep v s happ _ htotal hidx => ⟨fun h => ⟨fun hmore => ?_, fun hover => ?_⟩, fun h h0 hend => ?_⟩,
    fun s hidx => if_pos hidx⟩
  · have hdone : LengthsAppended n rep v s (appendLens rep v (advance n s)) :=
      lengthsAppended_appendLens (hmore.le.trans htotal)
    exact ⟨_, (happ.exec_eq_clDone ((hasBits_iff n s).2 h) hmore.le).trans (hdone.clDone_eq_next hmore), hdone⟩
  · exact happ.exec_overrun ((hasBits_iff n s).2 h) hidx hover
  · exact (happ.exec_short ⟨h0, h⟩).trans (shortResult_of_end hend)

/-- Settles O15: the last length leaves the total reached, and the row goes on with the three checks of the tables. -/
theorem lastLengthCompletesTheTables : Obligations.LastLengthCompletesTheTables := by
  intro i n rep v s happ _ htotal h hlast
  have hdone : LengthsAppended n rep v s (appendLens rep v (advance n s)) :=
    lengthsAppended_appendLens (hlast.le.trans htotal)
  have hexec := (happ.exec_eq_clDone ((hasBits_iff n s).2 h) hlast.le).trans (hdone.clDone_eq_completeTables hlast)
  generalize appendLens rep v (advance n s) = u at hdone hexec
  refine ⟨u, hdone, fun hnone => ?_, fun hsome => ?_⟩
  · exact hexec.trans ((completeTables_noEob hnone).trans (hdone.raiseDecode_eq _))
  · rw [completeTables_of_eob hsome, hdone.nlen, hdone.ndist] at hexec
    refine ⟨lensSlice u.inf.lens 0 s.inf.nlen.toNat 288, lensSlice u.inf.lens s.inf.nlen.toNat s.inf.ndist.toNat 32,
      fun j hj => ?_, fun j hj => lensSlice_getD _ _ _ hj, fun c hll => ?_, fun hll => ⟨fun c hd => ?_, fun hd => ?_⟩⟩
    · rw [lensSlice_getD _ 0 s.inf.nlen.toNat hj, Nat.zero_add]
    · rw [hexec, hll, andThen_raise]
      exact hdone.raiseDecode_eq c
    · rw [hexec, hll, andThen_ok, hd, andThen_raise]
      exact hdone.raiseDecode_eq c
    · rw [hexec, hll, andThen_ok, hd, andThen_ok]
end

section
/-! SUPPORT. `DecodeSym` with a search and without one (R133), when it ends with HUFF_NOCODE (R134), and the code space that
`CheckLengths` counts (R131). -/

namespace Sys2Proof.Machine

/-! ### From one code length to the next (R130) -/

theorem firstCode_succ (lens : List Nat) {l : Nat} (hl : 0 < l) :
    firstCode lens (l + 1) = (firstCode lens l + lengthCount lens l) * 2 := by
  rw [firstCode, if_neg hl.ne']

/-- Bits that lie beyond the codes of one length reach the first code of the next length, whichever bit follows. -/
theorem firstCode_succ_le_of_noSymbol {lens : List Nat} {l c : Nat} (hl : 0 < l) (hfirst : firstCode lens l ≤ c)
    (hnone : (symbolsOfLength lens l)[c - firstCode lens l]? = none) : firstCode lens (l + 1) ≤ c * 2 := by
  have hcount := symbolsOfLength_getElem?_eq_none.1 hnone
  rw [firstCode_succ lens hl]
  omega

/-- From its first code on, a code of length `l` belongs to the symbol that stands there among the symbols of that length. -/
theorem symbolsOfLength_eq_some_iff_canonCode {lens : List Nat} {l c sym : Nat} (hfirst : firstCode lens l ≤ c) :
    (symbolsOfLength lens l)[c - firstCode lens l]? = some sym ↔ lens[sym]? = some l ∧ canonCode lens sym = c := by
  rw [symbolsOfLength_getElem?_eq_some]
  refine and_congr_right fun hsym => ?_
  rw [canonCode_of_length hsym]
  omega

/-! ### The search for a symbol (R133) -/

theorem hasCode_iff {lens : List Nat} {l c sym : Nat} (hlt : sym < lens.length) :
    (lens.getD sym 0 == l && canonCode lens sym == c) = true ↔ lens[sym]? = some l ∧ canonCode lens sym = c := by
  simp [List.getD_eq_getElem?_getD, List.getElem?_eq_getElem hlt]

/-- The search over all symbols finds what the table of one length holds: no two symbols of a length share a code. -/
theorem find?_hasCode {lens : List Nat} {l c : Nat} (hfirst : firstCode lens l ≤ c) :
    ((List.range lens.length).find? fun sym => lens.getD sym 0 == l && canonCode lens sym == c)
      = (symbolsOfLength lens l)[c - firstCode lens l]? := by
  cases hsym : (symbolsOfLength lens l)[c - firstCode lens l]? with
  | none =>
    refine List.find?_eq_none.2 fun sym hmem hcode => ?_
    have hsome := (hasCode_iff (List.mem_range.1 hmem)).1 hcode
    rw [← symbolsOfLength_eq_some_iff_canonCode hfirst, hsym] at hsome
    cases hsome
  | some sym =>
    have hcode := (symbolsOfLength_eq_some_iff_canonCode hfirst).1 hsym
    have hlt := (List.getElem?_eq_some_iff.1 hcode.1).1
    refine List.find?_range_eq_some.2 ⟨(hasCode_iff hlt).2 hcode, List.mem_range.2 hlt, fun j hj => ?_⟩
    rw [Bool.not_eq_true', ← Bool.not_eq_true, hasCode_iff (hj.trans hlt),
      ← symbolsOfLength_eq_some_iff_canonCode hfirst, hsym, Option.some_inj]
    exact hj.ne'

/-- The two forms of `DecodeSym` agree from any length on, as long as the code read has not fallen below the first code. -/
theorem decodeSymFrom_eq_bySearch (lens : List Nat) {fuel l c : Nat} (s : State) (hl : 0 < l)
    (hfirst : firstCode lens l ≤ c * 2) :
    decodeSymFrom lens fuel l c (firstCode lens l) s = decodeSymBySearchFrom lens fuel l c s := by
  induction fuel generalizing l c s with
  | zero => rfl
  | succ fuel ih =>
    rw [decodeSymFrom, decodeSymBySearchFrom]
    cases readBits 1 s with
    | error e => rfl
    | ok r =>
      have hread : firstCode lens l ≤ c * 2 + r.1 := hfirst.trans (Nat.le_add_right _ _)
      dsimp only
      rw [find?_hasCode hread]
      cases hsym : (symbolsOfLength lens l)[c * 2 + r.1 - firstCode lens l]? with
      | some sym => rfl
      | none =>
        dsimp only
        rw [← firstCode_succ lens hl]
        exact ih r.2 (Nat.succ_pos l) (firstCode_succ_le_of_noSymbol hl hread hsym)

/-! ### The code space of all lengths (R131) -/

theorem spaceUsed_fifteen {lens : List Nat} (hlens : ∀ l ∈ lens, l ≤ 15) : spaceUsed lens 15 = kraft lens := by
  refine congrArg List.sum (List.map_congr_left fun l hl => ?_)
  simp only [not_lt.2 (hlens l hl), or_false]

/-- What would be the first code of length 16 is twice the code space used. -/
theorem firstCode_sixteen {lens : List Nat} (hlens : ∀ l ∈ lens, l ≤ 15) : firstCode lens 16 = kraft lens * 2 := by
  have hspace := firstCode_space lens (l := 14) le_rfl
  rw [← spaceUsed_fifteen hlens, spaceUsed_succ lens 14, ← hspace, ← Nat.add_mul, firstCode_succ lens (by decide)]
  norm_num

theorem kraft_eq_zero_iff {lens : List Nat} : kraft lens = 0 ↔ ∀ l ∈ lens, l = 0 := by
  simp [kraft, List.sum_eq_zero_iff]

/-! ### When no code is found (R134) -/

/-- With 15 bits at hand, `DecodeSym` goes on until it accepts a symbol or the 15 bits lie beyond every code. -/
theorem decodeOn_ok_or_noCode {lens : List Nat} {fuel l : Nat} {s : State} (hc : 8 * s.env.cin.length < 2 ^ 64)
    (hbits : hasBits 15 s = true) (hfuel : l + fuel = 15) (hfirst : firstCode lens (l + 1) ≤ codeRead s l * 2) :
    (∃ r, decodeOn lens fuel l s = .ok r)
      ∨ decodeOn lens fuel l s = .error (.raise .huffNocode) ∧ firstCode lens 16 ≤ codeRead s 15 * 2 := by
  induction fuel generalizing l with
  | zero =>
    obtain rfl : l = 15 := hfuel
    exact .inr ⟨rfl, hfirst⟩
  | succ fuel ih =>
    have hone : hasBits (l + 1) s = true := hasBits_mono (by omega) hbits
    have hread : firstCode lens (l + 1) ≤ codeRead s (l + 1) := hfirst.trans (Nat.le_add_right _ _)
    cases hsym : (symbolsOfLength lens (l + 1))[codeRead s (l + 1) - firstCode lens (l + 1)]? with
    | some sym => exact .inl ⟨_, decodeOn_accept hc hone hsym⟩
    | none =>
      rw [decodeOn_reject hc hone hsym]
      exact ih (by omega) (firstCode_succ_le_of_noSymbol (Nat.succ_pos l) hread hsym)

/-- HUFF_NOCODE leaves code space unused: the 15 bits read lie beyond it. -/
theorem decodeSym_ok_or_noCode {lens : List Nat} {s : State} (hlens : ∀ l ∈ lens, l ≤ 15)
    (hc : 8 * s.env.cin.length < 2 ^ 64) (hbits : hasBits 15 s = true) :
    (∃ r, decodeSym lens s = .ok r) ∨ decodeSym lens s = .error (.raise .huffNocode) ∧ kraft lens < 2 ^ 15 := by
  rw [decodeSym_eq_decodeOn]
  refine (decodeOn_ok_or_noCode hc hbits rfl (Nat.zero_le _)).imp_right fun ⟨herr, hfirst⟩ => ⟨herr, ?_⟩
  rw [firstCode_sixteen hlens] at hfirst
  exact (Nat.le_of_mul_le_mul_right hfirst (by decide)).trans_lt (codeRead_lt s 15)

/-- A symbol that `DecodeSym` answers has a code, so the code space is not empty. -/
theorem kraft_ne_zero_of_decodeSym {lens : List Nat} {s : State} {r : Nat × State} (h : decodeSym lens s = .ok r) :
    kraft lens ≠ 0 := by
  obtain ⟨k, hk, _, hsym, _⟩ := decodeSym_ok (sym := r.1) (t := r.2) h
  exact fun h0 => (Nat.pos_iff_ne_zero.1 hk) (kraft_eq_zero_iff.1 h0 k (List.mem_of_getElem? hsym))

/-! ### CheckLengths (R131) -/

theorem codeSpaceLeft_succ_eq_some_iff {lens : List Nat} {l left : Nat} :
    codeSpaceLeft lens (l + 1) = some left
      ↔ ∃ before, codeSpaceLeft lens l = some before ∧ lengthCount lens (l + 1) + left = before * 2 := by
  rw [codeSpaceLeft]
  cases codeSpaceLeft lens l with
  | none => simp
  | some before =>
    simp only [Option.some.injEq, exists_eq_left']
    split
    · simp only [reduceCtorEq, false_iff]
      omega
    · rw [Option.some_inj]
      omega

/-- `left` after the lengths 1 to `l` is how many codes of length `l` are still free: the next length begins after twice
those in use. -/
theorem codeSpaceLeft_eq_some_iff {lens : List Nat} {l left : Nat} :
    codeSpaceLeft lens l = some left ↔ firstCode lens (l + 1) + left * 2 = 2 ^ (l + 1) := by
  induction l generalizing left with
  | zero =>
    simp only [codeSpaceLeft, firstCode, if_true, Option.some_inj]
    omega
  | succ l ih =>
    have hpow : 2 ^ (l + 2) = 2 ^ (l + 1) * 2 := pow_succ 2 (l + 1)
    have heven : firstCode lens (l + 1) % 2 = 0 := Nat.mul_mod_left _ 2
    have hhalf : 2 ^ (l + 1) % 2 = 0 := by rw [pow_succ, Nat.mul_mod_left]
    rw [codeSpaceLeft_succ_eq_some_iff, firstCode_succ lens (show 0 < l + 1 by omega), hpow]
    simp only [ih]
    constructor
    · rintro ⟨before, hbefore, hleft⟩
      omega
    · intro hleft
      exact ⟨(2 ^ (l + 1) - firstCode lens (l + 1)) / 2, by omega, by omega⟩

theorem codeSpaceLeft_fifteen {lens : List Nat} (hlens : ∀ l ∈ lens, l ≤ 15) :
    codeSpaceLeft lens 15 = if 2 ^ 15 < kraft lens then none else some (2 ^ 15 - kraft lens) := by
  have hleft (left : Nat) : codeSpaceLeft lens 15 = some left ↔ kraft lens + left = 2 ^ 15 := by
    rw [codeSpaceLeft_eq_some_iff, firstCode_sixteen hlens]
    omega
  split
  · refine Option.eq_none_iff_forall_ne_some.2 fun left h => ?_
    have := (hleft left).1 h
    omega
  · exact (hleft _).2 (by omega)

theorem foldl_max_eq_zero_iff (lens : List Nat) (a : Nat) :
    lens.foldl max a = 0 ↔ a = 0 ∧ ∀ l ∈ lens, l = 0 := by
  induction lens generalizing a with
  | nil => simp
  | cons x lens ih => simp [ih, and_assoc]

theorem maxLength_eq_zero_iff (lens : List Nat) : maxLength lens = 0 ↔ kraft lens = 0 := by
  simp [maxLength, foldl_max_eq_zero_iff, kraft_eq_zero_iff]

/-- `CheckLengths` by the code space used. -/
theorem checkLengths_eq {lens : List Nat} (kind : CodeKind) (hlens : ∀ l ∈ lens, l ≤ 15) :
    checkLengths lens kind
      = if 2 ^ 15 < kraft lens then .error (.raise .huffOversubscribed)
        else if (0 < kraft lens ∧ kraft lens < 2 ^ 15) ∧ (kind = .cl ∨ maxLength lens ≠ 1) then
          .error (.raise .huffIncomplete)
        else .ok () := by
  rw [checkLengths, codeSpaceLeft_fifteen hlens]
  simp only [maxLength_eq_zero_iff]
  by_cases h0 : kraft lens = 0
  · simp [h0]
  · by_cases hover : 2 ^ 15 < kraft lens
    · simp only [h0, hover, if_true, if_false]
    · simp only [h0, hover, if_false, Nat.sub_pos_iff_lt, Nat.pos_of_ne_zero h0, true_and]

end Sys2Proof.Machine

open Sys2Proof Sys2Proof.Machine

/-- Settles O6: the two forms agree at each length, since the code read never falls below the first code of its length. -/
theorem searchFreeDecodeIsTheSearch : Obligations.SearchFreeDecodeIsTheSearch :=
  fun lens s => decodeSymFrom_eq_bySearch lens s Nat.one_pos (Nat.zero_le _)

/-- Settles O7: HUFF_NOCODE says that the bits read lie beyond the code space used, which a complete code leaves no room
for; and a symbol answered has a code. -/
theorem noCodeOnlyInIncompleteCodes : Obligations.NoCodeOnlyInIncompleteCodes := by
  intro lens s hlens hc hbits
  have hends := decodeSym_ok_or_noCode hlens hc ((hasBits_iff 15 s).2 hbits)
  refine ⟨hends.imp_right And.left, fun hfull => ?_, fun hempty => ?_⟩
  · exact hends.resolve_right fun ⟨_, hroom⟩ => hroom.ne hfull
  · exact (hends.resolve_left fun ⟨_, hr⟩ => kraft_ne_zero_of_decodeSym hr hempty).1

/-- Settles O8: the three outcomes are the three cases of the code space used. -/
theorem checkLengthsByCodeSpace : Obligations.CheckLengthsByCodeSpace := by
  intro lens kind hlens
  rw [checkLengths_eq kind hlens]
  by_cases hover : 2 ^ 15 < kraft lens
  · rw [if_pos hover]
    exact ⟨iff_of_true rfl hover, iff_of_false nofun (by omega), iff_of_false nofun (by omega)⟩
  rw [if_neg hover]
  by_cases hincomplete : (0 < kraft lens ∧ kraft lens < 2 ^ 15) ∧ (kind = .cl ∨ maxLength lens ≠ 1)
  · rw [if_pos hincomplete]
    obtain ⟨⟨hpos, hlt⟩, hkind⟩ := hincomplete
    refine ⟨iff_of_false nofun hover, iff_of_false nofun ?_, iff_of_true rfl ⟨hpos, hlt, hkind⟩⟩
    rintro (hempty | hfull | ⟨_, hcl, hone⟩)
    · exact hpos.ne' hempty
    · exact hlt.ne hfull
    · exact hkind.elim hcl fun h => h hone
  · rw [if_neg hincomplete]
    refine ⟨iff_of_false nofun hover, iff_of_true rfl ?_, iff_of_false nofun fun ⟨hpos, hlt, hkind⟩ =>
      hincomplete ⟨⟨hpos, hlt⟩, hkind⟩⟩
    by_cases hpartial : 0 < kraft lens ∧ kraft lens < 2 ^ 15
    · obtain ⟨hcl, hone⟩ := not_or.1 fun hkind => hincomplete ⟨hpartial, hkind⟩
      exact .inr (.inr ⟨hpartial.2, hcl, not_not.1 hone⟩)
    · omega
end

section
/-! SUPPORT. Where an emitted byte goes at the two ends of a row (R140, R221 to R223), and bytes copied one after the other in
mid-row (R148, R149). -/

namespace Sys2Proof.Machine

/-! ### A tag and a row's last byte -/

theorem Emits.drv_eq {i : Instr} {b : Byte} {s u : State} (h : Emits i b s u) : u.drv = s.drv := by
  rcases h with ⟨_, rfl⟩ | ⟨_, _, _, _, rfl⟩ | ⟨_, _, _, _, _, rfl⟩ <;> rfl

theorem Emits.mem_eq {i : Instr} {b : Byte} {s u : State} (h : Emits i b s u) : u.mem = s.mem := by
  rcases h with ⟨_, rfl⟩ | ⟨_, _, _, _, rfl⟩ | ⟨_, _, _, _, _, rfl⟩ <;> rfl

theorem Emits.curRow_eq {i : Instr} {b : Byte} {s u : State} (h : Emits i b s u) : u.curRow = s.curRow := by
  rw [State.curRow, State.curRow, h.mem_eq, h.flt_eq]

theorem Emits.prevRow_eq {i : Instr} {b : Byte} {s u : State} (h : Emits i b s u) : u.prevRow = s.prevRow := by
  rw [State.prevRow, State.prevRow, h.mem_eq, h.flt_eq]

/-- The byte in the window stays there whatever then becomes of the current row. -/
theorem InWindow.setCurRow {b : Byte} {s t : State} (h : InWindow b s t) (r : Cells 8) : InWindow b s (t.setCurRow r) where
  inf := h.inf
  winAt := by rw [State.setCurRow_win]; exact h.winAt
  winElse := fun a ha => by rw [State.setCurRow_win]; exact h.winElse a ha
  prevRow := (State.prevRow_setCurRow t r).trans h.prevRow
  pal := (State.setCurRow_pal t r).trans h.pal
  pix := h.pix
  drv := h.drv
  rout := h.rout
  env := h.env
  params := h.params

theorem rowReconstructed_inWindow (b : Byte) (s : State) : InWindow b s (rowReconstructed b s) :=
  (bytePlaced_emittedMidRow b s).window.setCurRow _

theorem rowReconstructed_curRow (b : Byte) (s : State) :
    (rowReconstructed b s).curRow
      = reconstruct s.flt.ftype s.drv.fbpp s.prevRow s.flt.pstride (s.curRow.write s.flt.rx b) :=
  State.curRow_setCurRow (bytePlaced b s) _

theorem rowReconstructed_flt (b : Byte) (s : State) :
    (rowReconstructed b s).flt = { s.flt with rx := s.flt.rx + 1 } := rfl

/-- The last byte of a row ends in the image's pixel format (R223, R280). -/
theorem emit_lastByte_eq_exec {b : Byte} {s : State} (hp : s.flt.rphase = .data) (hx : s.flt.rx + 1 = s.flt.pstride) :
    emit b s = exec (decodePixfmt s.drv.colortype s.drv.bitdepth) (rowReconstructed b s) := by
  rw [← runPixel_eq_exec, rowReconstructed, ← bytePlaced_prevRow b s, ← bytePlaced_curRow b s]
  exact emit_lastByte hp hx

/-! ### Copying inside a row -/

/-- The j-th of the last `dist` bytes of the window, the oldest first (R48). -/
def State.recentByte (s : State) (dist j : Nat) : Byte :=
  s.mem.win.read ((s.inf.wpos + s.params.wsize - dist + j) % s.params.wsize)

/-- A match of distance `dist` is pending, and `n` more bytes of it end before the row does. -/
structure CopiesInRow (dist n : Nat) (s : State) : Prop where
  wpos : s.inf.wpos < s.params.wsize
  matchDist : s.inf.matchDist.toNat = dist
  dist_pos : 1 ≤ dist
  dist_le : dist ≤ s.params.wsize
  matchLen : n ≤ s.inf.matchLen.toNat
  rphase : s.flt.rphase = .data
  room : s.flt.rx + n < s.flt.pstride

/-- One byte of a match of distance `dist` went from `s` to `t`: the oldest of the last `dist` bytes was appended to the row, and
as it is now the newest of them, they have been rotated by one. -/
structure ByteCopied (dist : Nat) (s t : State) : Prop where
  rx : t.flt.rx = s.flt.rx + 1
  rowAt : t.curRow.read s.flt.rx = s.recentByte dist 0
  rowElse : ∀ a, a ≠ s.flt.rx → t.curRow.read a = s.curRow.read a
  rotated : ∀ j, j < dist → t.recentByte dist j = s.recentByte dist ((j + 1) % dist)

/-- A part of a turn around the window ends elsewhere. -/
theorem add_mod_ne_self {size p c : Nat} (hp : p < size) (hpos : 0 < c) (hc : c < size) : (p + c) % size ≠ p := by
  rcases lt_or_ge (p + c) size with hlt | hge
  · rw [Nat.mod_eq_of_lt hlt]
    omega
  · rw [Nat.mod_eq_sub_mod hge, Nat.mod_eq_of_lt (by omega)]
    omega

/-- A byte that enters the window where the oldest of the last `dist` bytes is repeated rotates them. -/
theorem InWindow.recentByte_rotated {dist : Nat} {s t : State} (h : InWindow (s.recentByte dist 0) s t)
    (hw : s.inf.wpos < s.params.wsize) (hd : dist ≤ s.params.wsize) {j : Nat} (hj : j < dist) :
    t.recentByte dist j = s.recentByte dist ((j + 1) % dist) := by
  have hwpos : t.inf.wpos = (s.inf.wpos + 1) % s.params.wsize := by rw [h.inf]
  have haddr : (t.inf.wpos + s.params.wsize - dist + j) % s.params.wsize
      = (s.inf.wpos + s.params.wsize - dist + (j + 1)) % s.params.wsize := by
    rw [hwpos, show (s.inf.wpos + 1) % s.params.wsize + s.params.wsize - dist + j
        = (s.inf.wpos + 1) % s.params.wsize + (s.params.wsize - dist + j) by omega, Nat.mod_add_mod]
    congr 1
    omega
  rw [State.recentByte, h.params, haddr]
  by_cases hlast : j + 1 = dist
  · rw [hlast, Nat.mod_self, Nat.sub_add_cancel (by omega), Nat.add_mod_right, Nat.mod_eq_of_lt hw]
    exact h.winAt
  · have hother : (s.inf.wpos + s.params.wsize - dist + (j + 1)) % s.params.wsize ≠ s.inf.wpos := by
      rw [show s.inf.wpos + s.params.wsize - dist + (j + 1) = s.inf.wpos + (s.params.wsize - (dist - (j + 1))) by omega]
      exact add_mod_ne_self hw (by omega) (by omega)
    rw [Nat.mod_eq_of_lt (show j + 1 < dist by omega)]
    exact h.winElse _ hother

/-- What MATCH_BYTE does to INF before it emits (R148). -/
def matchCounted (s : State) : State :=
  s.setInf { s.inf with
    matchLen := s.inf.matchLen - 1
    infState := if s.inf.matchLen = 1 then .sym else s.inf.infState }

/-- A match copy reads the oldest of the last MATCH_DIST bytes. -/
theorem recentByte_zero {s : State} (h : s.inf.matchDist.toNat ≤ s.params.wsize) :
    s.recentByte s.inf.matchDist.toNat 0 = s.mem.win.read (matchIndex s) := by
  unfold State.recentByte matchIndex
  congr 1
  rcases h.eq_or_lt with hfull | hlt
  · rw [hfull, Nat.add_sub_cancel, Nat.mod_self, Nat.add_zero, Nat.sub_zero, Nat.add_mod_right]
  · rw [Nat.mod_eq_of_lt hlt, Nat.add_zero, Nat.add_sub_assoc h]

theorem CopiesInRow.exec_matchByte {dist n : Nat} {s : State} (h : CopiesInRow dist (n + 1) s) :
    ∃ t, exec .matchByte s = .next t ∧ ByteCopied dist s t ∧ CopiesInRow dist n t := by
  obtain ⟨hw, rfl, hpos, hle, hlen, hphase, hroom⟩ := h
  have hemits : Emits .matchByte (s.recentByte s.inf.matchDist.toNat 0) s (matchCounted s) :=
    .inr (.inr ⟨rfl, by omega, hw, hle, by rw [recentByte_zero hle, matchIndex_eq], rfl⟩)
  have hplaced := bytePlaced_emittedMidRow (s.recentByte s.inf.matchDist.toNat 0) (matchCounted s)
  have hwindow : InWindow ((matchCounted s).recentByte s.inf.matchDist.toNat 0) (matchCounted s) _ := hplaced.window
  have hmid : (matchCounted s).flt.rx + 1 ≠ (matchCounted s).flt.pstride := (show s.flt.rx + 1 < s.flt.pstride by omega).ne
  have hcount : n ≤ (s.inf.matchLen - 1).toNat := by bv_omega
  refine ⟨_, (exec_of_emits hemits).trans (emit_midRow hphase hmid), ?_, ?_⟩
  · exact ⟨rfl, hplaced.rowAt, hplaced.rowElse, fun j hj => hwindow.recentByte_rotated hw hle hj⟩
  · exact ⟨Nat.mod_lt _ (wsize_pos _), rfl, hpos, hle, hcount, hphase, show s.flt.rx + 1 + n < s.flt.pstride by omega⟩

/-- Copying `n` bytes appends the last `dist` bytes over and over, and leaves the row before them (R149). -/
theorem CopiesInRow.repeatExec_matchByte {dist n : Nat} {s : State} (h : CopiesInRow dist n s) :
    ∃ t, repeatExec .matchByte n s = .next t ∧ (∀ k, k < n → t.curRow.read (s.flt.rx + k) = s.recentByte dist (k % dist))
      ∧ ∀ a, a < s.flt.rx → t.curRow.read a = s.curRow.read a := by
  induction n generalizing s with
  | zero => exact ⟨s, rfl, nofun, fun _ _ => rfl⟩
  | succ n ih =>
    obtain ⟨s1, hexec, hcopied, hnext⟩ := h.exec_matchByte
    obtain ⟨t, hrun, hrow, hbefore⟩ := ih hnext
    rw [hcopied.rx] at hrow hbefore
    refine ⟨t, by rw [repeatExec, hexec]; exact hrun, fun k hk => ?_, fun a ha => ?_⟩
    · cases k with
      | zero => rw [Nat.add_zero, hbefore _ (Nat.lt_succ_self _), hcopied.rowAt, Nat.zero_mod]
      | succ k =>
        rw [show s.flt.rx + (k + 1) = s.flt.rx + 1 + k by omega, hrow k (by omega),
          hcopied.rotated _ (Nat.mod_lt k h.dist_pos), Nat.mod_add_mod]
    · rw [hbefore a (by omega), hcopied.rowElse a ha.ne]

end Sys2Proof.Machine

open Sys2Proof Sys2Proof.Machine

/-- Settles O25: the row emits its byte, the byte enters the window, and `FltPush` runs the tag's row. -/
theorem emittedTagRunsItsFilter : Obligations.EmittedTagRunsItsFilter := by
  intro i b s v h _ hphase
  refine ⟨windowPush b v, ?_, windowPush_inWindow b v, h.flt_eq, h.curRow_eq⟩
  rw [exec_of_emits h, emit_tag (h.flt_eq ▸ hphase), runTag_eq_exec]

/-- Settles O29: the byte is placed, the row reconstructed, and the pixel format runs. -/
theorem lastByteCompletesTheRow : Obligations.LastByteCompletesTheRow := by
  intro i b s v h _ hphase hrx
  refine ⟨rowReconstructed b v, s.curRow.write s.flt.rx b, ?_, rowReconstructed_inWindow b v, fun x => ?_, ?_, ?_⟩
  · rw [exec_of_emits h, emit_lastByte_eq_exec (h.flt_eq ▸ hphase) (h.flt_eq ▸ hrx), h.drv_eq]
  · simp only [Cells.read_write, eq_comm]
  · rw [rowReconstructed_curRow, h.flt_eq, h.drv_eq, h.curRow_eq, h.prevRow_eq]
    rfl
  · rw [rowReconstructed_flt, h.flt_eq, hrx]

/-- Settles O17, by induction on the bytes copied: each copy rotates the last `dist` bytes. -/
theorem overlappingCopyIsPeriodic : Obligations.OverlappingCopyIsPeriodic := by
  intro n d s hw hd hpos hle hlen hphase hroom
  obtain ⟨t, hrun, hrow, _⟩ := CopiesInRow.repeatExec_matchByte ⟨hw, hd.symm, hpos, hle, hlen, hphase, hroom⟩
  exact ⟨t, hrun, hrow⟩
end

section
/-! SUPPORT. A whole SYM step (R141, R145, R324): its literal/length symbol, and for a length its distance. -/

namespace Sys2Proof.Machine

/-! ### Rows -/

theorem decode_llsym_literal {sym : Nat} (h : sym ≤ 255) : decode .llsym sym = .ok (.lit (BitVec.ofNat 8 sym)) := by
  have hlit := decode_encode_lit (BitVec.ofNat 8 sym)
  rwa [BitVec.toNat_ofNat, Nat.mod_eq_of_lt (show sym < 2 ^ 8 by omega)] at hlit

/-- The symbols above those of the length table raise (R144). -/
theorem exec_reservedLength {sym : Nat} (h286 : 286 ≤ sym) (h288 : sym < 288) :
    ∃ i, decode .llsym sym = .ok i ∧ i.isLength = false ∧ ∀ s, exec i s = raiseDecode .lengthSymbol s := by
  interval_cases sym
  · exact ⟨.ll286, rfl, rfl, fun _ => rfl⟩
  · exact ⟨.ll287, rfl, rfl, fun _ => rfl⟩

/-- The symbols above those of the distance table raise (R146). -/
theorem exec_reservedDistance {t : Nat} (h30 : 30 ≤ t) (h32 : t < 32) :
    ∃ j, decode .dsym t = .ok j ∧ ∀ s, exec j s = raiseDecode .distanceSymbol s := by
  interval_cases t
  · exact ⟨.dist30, rfl, fun _ => rfl⟩
  · exact ⟨.dist31, rfl, fun _ => rfl⟩

/-! ### The literal/length half -/

/-- `s` with MATCH_LEN written, as a length symbol leaves it for its distance symbol (R145). -/
def withMatchLen (len : Nat) (s : State) : State := s.setInf { s.inf with matchLen := BitVec.ofNat 9 len }

section
variable {s : State} (hst : s.inf.infState = .sym)
include hst

theorem fetchWord_sym : fetchWord s = (decodeSym (fileLens s.inf.llLen) s).map fun r => (.llsym, r.1, r.2) := by
  simp only [fetchWord, hst]

theorem coreStep_sym_raise {c : Cause} (h : decodeSym (fileLens s.inf.llLen) s = .error (.raise c)) :
    coreStep s = raiseDecode c s := by
  rw [coreStep, fetchWord_sym hst, h]
  rfl

variable {s1 : State} {sym : Nat} (hsym : decodeSym (fileLens s.inf.llLen) s = .ok (sym, s1))
include hsym

theorem coreStep_sym_row {i : Instr} (hi : decode .llsym sym = .ok i) : coreStep s = runElement i s1 :=
  coreStep_of_fetch (by rw [fetchWord_sym hst, hsym]; rfl) hi

theorem coreStep_sym_alone {i : Instr} (hi : decode .llsym sym = .ok i) (hl : i.isLength = false) :
    coreStep s = exec i s1 := by
  rw [coreStep_sym_row hst hsym hi, runElement_of_not_isLength hl]

variable {base n : Nat} (h257 : 257 ≤ sym) (hrow : lengthTable[sym - 257]? = some (base, n))
include h257 hrow

theorem coreStep_length_short (h : FieldShort n s1) : coreStep s = shortResult s := by
  obtain ⟨i, hi, _, hexec⟩ := exec_lengthRow hrow
  obtain ⟨k, _, rfl, _⟩ := decodeSym_takes hsym
  rw [Nat.add_sub_cancel' h257] at hi
  rw [coreStep_sym_row hst hsym hi]
  exact runElement_short ((hexec _).trans (lengthSymbol_short h))

/-- With its extra bits read, a length symbol goes on with its distance. -/
theorem coreStep_length (hd : s.drv.dstate = .decoding) (h : hasBits n s1 = true) :
    coreStep s = distanceStep (withMatchLen (base + nextBits n s1) (advance n s1)) := by
  obtain ⟨i, hi, hl, hexec⟩ := exec_lengthRow hrow
  obtain ⟨k, _, rfl, _⟩ := decodeSym_takes hsym
  rw [Nat.add_sub_cancel' h257] at hi
  rw [coreStep_sym_row hst hsym hi]
  exact runElement_of_isLength hl ((hexec _).trans (lengthSymbol_of_hasBits h base)) hd

end

/-! ### The distance half -/

theorem distanceStep_raise {s : State} {c : Cause} (len : Nat) (h : decodeSym (fileLens s.inf.dLen) s = .error (.raise c)) :
    distanceStep (withMatchLen len s) = raiseDecode c s := by
  have hmoved := decodeSym_setInf (fileLens s.inf.dLen) s (r := (withMatchLen len s).inf) rfl
  rw [h] at hmoved
  exact congrArg (andThen (withMatchLen len s) · _) hmoved

theorem distanceStep_row {s s1 : State} {t : Nat} {j : Instr} (len : Nat)
    (h : decodeSym (fileLens s.inf.dLen) s = .ok (t, s1)) (hj : decode .dsym t = .ok j) :
    distanceStep (withMatchLen len s) = exec j (withMatchLen len s1) := by
  have hmoved := decodeSym_setInf (fileLens s.inf.dLen) s (r := (withMatchLen len s).inf) rfl
  obtain ⟨k, _, rfl, _⟩ := decodeSym_takes h
  rw [h] at hmoved
  exact distanceStep_of_decode hmoved hj

end Sys2Proof.Machine

open Sys2Proof Sys2Proof.Machine

/-- Settles O22: the four reserved rows and END raise in every state, and in END the step runs no other row. -/
theorem reservedSymbolsAndEndRaise : Obligations.ReservedSymbolsAndEndRaise := by
  refine fun s => ⟨rfl, rfl, rfl, rfl, rfl, fun hst => ?_⟩
  have hfetch : fetchWord s = .ok (.micro, InfState.ended.code, s) := by simp only [fetchWord, hst]
  rw [coreStep_of_fetch (i := .endStep) hfetch rfl, runElement_of_not_isLength rfl]
  rfl

/-- Settles O23: the literal/length half by its symbol, then the distance half by its symbol. What either half has moved before
it raises is INF alone, which the trap discards. -/
theorem symStepTakesAWholeMatch : Obligations.SymStepTakesAWholeMatch := by
  intro s hst hd _
  refine ⟨fun c h => coreStep_sym_raise hst h, fun sym s1 hsym => ?_⟩
  obtain ⟨k, _, rfl, _⟩ := decodeSym_takes hsym
  refine ⟨fun hlit => ?_, fun heob => ?_, fun hres => ?_, fun base n h257 hrow => ⟨fun h h0 hend => ?_, fun h => ?_⟩⟩
  · exact coreStep_sym_alone hst hsym (decode_llsym_literal hlit) rfl
  · subst heob
    exact coreStep_sym_alone (i := .eob) hst hsym rfl rfl
  · obtain ⟨i, hi, hl, hexec⟩ := exec_reservedLength hres (decodeSym_file_lt hsym)
    exact (coreStep_sym_alone hst hsym hi hl).trans (hexec _)
  · exact (coreStep_length_short hst hsym h257 hrow ⟨h0, h⟩).trans (shortResult_of_end hend)
  rw [coreStep_length hst hsym h257 hrow hd ((hasBits_iff _ _).2 h)]
  generalize hlen : base + nextBits n (advance k s) = len
  refine ⟨fun c hc => distanceStep_raise len hc, fun t s2 hdist => ?_⟩
  obtain ⟨m, _, rfl, _⟩ := decodeSym_takes hdist
  refine ⟨fun h30 => ?_, fun dbase dn hdrow => ?_⟩
  · obtain ⟨j, hj, hexec⟩ := exec_reservedDistance h30 (decodeSym_file_lt hdist)
    exact (distanceStep_row len hdist hj).trans (hexec _)
  · obtain ⟨j, hj, hexec⟩ := exec_distanceRow hdrow
    rw [distanceStep_row len hdist hj, hexec]
    refine ⟨fun hshort h0 hend => ?_, fun hbits => ?_⟩
    · exact (distanceSymbol_short ⟨h0, hshort⟩).trans (shortResult_of_end hend)
    · have hfield := (hasBits_iff dn (withMatchLen len (advance m (advance n (advance k s))))).2 hbits
      exact ⟨distanceSymbol_tooFar hfield, distanceSymbol_near hfield⟩
end

section
/-! SUPPORT. The scanline reconstructor: which row a tag starts (R221, R229), the predictors (R231), and the loop that reverses a
filter (R223) and its inverse (R237 c). -/

namespace Sys2Proof.Machine

/-! ### The Paeth predictor (R231) -/

/-- How far `v` is from `a + b - c`, on integers. -/
def paethDistance (a b c v : Byte) : Nat := (((a.toNat : Int) + b.toNat - c.toNat) - v.toNat).natAbs

/-- The neighbour that Paeth picks, and by how much it beats the other two: left wins every tie, then up. -/
theorem paeth_cases (a b c : Byte) :
    (paeth a b c = a ∧ paethDistance a b c a ≤ paethDistance a b c b ∧ paethDistance a b c a ≤ paethDistance a b c c)
    ∨ (paeth a b c = b ∧ paethDistance a b c b < paethDistance a b c a ∧ paethDistance a b c b ≤ paethDistance a b c c)
    ∨ (paeth a b c = c ∧ paethDistance a b c c < paethDistance a b c a
        ∧ paethDistance a b c c < paethDistance a b c b) := by
  have hpick : paeth a b c
      = if paethDistance a b c a ≤ paethDistance a b c b ∧ paethDistance a b c a ≤ paethDistance a b c c then a
        else if paethDistance a b c b ≤ paethDistance a b c c then b else c := rfl
  rw [hpick]
  split_ifs with hleft hup
  · exact .inl ⟨rfl, hleft⟩
  · exact .inr (.inl ⟨rfl, by omega, hup⟩)
  · exact .inr (.inr ⟨rfl, by omega, by omega⟩)

theorem paeth_mem (a b c : Byte) : paeth a b c = a ∨ paeth a b c = b ∨ paeth a b c = c :=
  (paeth_cases a b c).imp And.left (Or.imp And.left And.left)

theorem paeth_nearest {a b c v : Byte} (hv : v = a ∨ v = b ∨ v = c) :
    paethDistance a b c (paeth a b c) ≤ paethDistance a b c v := by
  rcases paeth_cases a b c with ⟨hpick, hup, hcorner⟩ | ⟨hpick, hleft, hcorner⟩ | ⟨hpick, hleft, hup⟩ <;> rw [hpick]
  · rcases hv with rfl | rfl | rfl
    exacts [le_rfl, hup, hcorner]
  · rcases hv with rfl | rfl | rfl
    exacts [hleft.le, le_rfl, hcorner]
  · rcases hv with rfl | rfl | rfl
    exacts [hleft.le, hup.le, le_rfl]

theorem paeth_eq_left {a b c : Byte} (h : ∀ v, v = b ∨ v = c → paethDistance a b c a ≤ paethDistance a b c v) :
    paeth a b c = a := by
  have hb := h b (.inl rfl)
  have hc := h c (.inr rfl)
  rcases paeth_cases a b c with ⟨hpick, _⟩ | ⟨_, hlt, _⟩ | ⟨_, hlt, _⟩
  · exact hpick
  · exact absurd hb (not_le.2 hlt)
  · exact absurd hc (not_le.2 hlt)

theorem paeth_eq_up {a b c : Byte} (hne : paeth a b c ≠ a) (h : paethDistance a b c b ≤ paethDistance a b c c) :
    paeth a b c = b := by
  rcases paeth_cases a b c with ⟨hpick, _⟩ | ⟨hpick, _⟩ | ⟨_, _, hlt⟩
  · exact absurd hpick hne
  · exact hpick
  · exact absurd h (not_le.2 hlt)

/-- Average is exact: half the sum of two bytes is a byte. -/
theorem pred_avg_toNat (a b c : Byte) : (pred 3 a b c).toNat = (a.toNat + b.toNat) / 2 := by
  have hsum : (a.toNat + b.toNat) / 2 < 2 ^ 8 := by omega
  exact (BitVec.toNat_ofNat _ 8).trans (Nat.mod_eq_of_lt hsum)

/-! ### Reversing a filter (R223) -/

/-- A prediction looks at the current row only to the left of its byte. -/
theorem predAt_congr {ftype : BitVec 3} {fbpp x : Nat} {prev row row' : Cells 8} (hpos : 1 ≤ fbpp)
    (h : ∀ y, y < x → row.read y = row'.read y) : predAt ftype fbpp prev row x = predAt ftype fbpp prev row' x := by
  unfold predAt
  by_cases hx : fbpp ≤ x
  · simp only [if_pos hx, h (x - fbpp) (by omega)]
  · simp only [if_neg hx]

/-- A byte is final once the loop has passed it. -/
theorem reconstruct_read_passed (ftype : BitVec 3) (fbpp : Nat) (prev cur : Cells 8) {x m n : Nat} (hx : x < m) (hmn : m ≤ n) :
    (reconstruct ftype fbpp prev n cur).read x = (reconstruct ftype fbpp prev m cur).read x := by
  induction n, hmn using Nat.le_induction with
  | base => rfl
  | succ n hn ih => rw [reconstruct, Cells.read_write_ne _ _ (by omega), ih]

/-- A reconstructed byte is the filtered byte plus its prediction from the reconstructed row itself. -/
theorem reconstruct_read_lt (ftype : BitVec 3) {fbpp n x : Nat} (prev cur : Cells 8) (hpos : 1 ≤ fbpp) (hx : x < n) :
    (reconstruct ftype fbpp prev n cur).read x
      = cur.read x + predAt ftype fbpp prev (reconstruct ftype fbpp prev n cur) x := by
  have hleft : ∀ y, y < x →
      (reconstruct ftype fbpp prev x cur).read y = (reconstruct ftype fbpp prev n cur).read y :=
    fun y hy => (reconstruct_read_passed ftype fbpp prev cur hy hx.le).symm
  calc (reconstruct ftype fbpp prev n cur).read x
      = (reconstruct ftype fbpp prev (x + 1) cur).read x :=
        reconstruct_read_passed ftype fbpp prev cur (Nat.lt_succ_self x) hx
    _ = cur.read x + predAt ftype fbpp prev (reconstruct ftype fbpp prev x cur) x := by
        rw [reconstruct, Cells.read_write_same, reconstruct_read_ge _ _ _ _ _ _ le_rfl]
    _ = _ := by rw [predAt_congr hpos hleft]

/-- Reconstruction undoes the forward filter: to the left of each byte the raw row is already back. -/
theorem reconstruct_filtered {ftype : BitVec 3} {fbpp n : Nat} {prev raw cur : Cells 8} (hpos : 1 ≤ fbpp)
    (hfilter : ∀ x, x < n → cur.read x = raw.read x - predAt ftype fbpp prev raw x) {x : Nat} (hx : x < n) :
    (reconstruct ftype fbpp prev n cur).read x = raw.read x := by
  induction x using Nat.strong_induction_on with
  | _ x ih =>
    rw [reconstruct_read_lt ftype prev cur hpos hx, predAt_congr hpos fun y hy => ih y hy (hy.trans hx), hfilter x hx,
      BitVec.sub_add_cancel]

end Sys2Proof.Machine

open Sys2Proof Sys2Proof.Machine

/-- Settles O24: running the tag inside a step accepts 0 to 4 and raises for the others, and is running its row. -/
theorem filterTagStartsARow : Obligations.FilterTagStartsARow := by
  intro b s
  rw [← runTag_eq_exec, runTag_decodeFtag]
  exact ⟨fun h => if_pos h, fun h => if_neg (not_le.2 h)⟩

/-- Settles O26: the loop has final left neighbours at each byte, and never writes beyond the row. -/
theorem reconstructionFollowsTheFilter : Obligations.ReconstructionFollowsTheFilter :=
  fun ftype fbpp n prev cur hpos =>
    ⟨fun _ hx => reconstruct_read_lt ftype prev cur hpos hx, reconstruct_read_ge ftype fbpp n prev cur⟩

/-- Settles O27: the exact average, and the three cases of Paeth. -/
theorem predictorsAreExact : Obligations.PredictorsAreExact := fun a b c =>
  ⟨rfl, rfl, rfl, pred_avg_toNat a b c, paeth_mem a b c, fun _ hv => paeth_nearest hv, paeth_eq_left, paeth_eq_up⟩

/-- Settles O28: the raw row comes back by induction from the left, and the filtered row by what each byte is. -/
theorem unfilterInvertsFilter : Obligations.UnfilterInvertsFilter := by
  intro ftype fbpp n prev raw cur hpos
  refine ⟨fun hfilter x hx => reconstruct_filtered hpos hfilter hx, fun x hx => ?_⟩
  rw [sub_eq_iff_eq_add]
  exact reconstruct_read_lt ftype prev cur hpos hx
end

section
/-! SUPPORT. The seven Adam7 passes (R234, R235): which pixels a pass has, and which pass a pixel is in (R237 b). -/

namespace Sys2Proof.Machine

/-- The columns (or rows) of a pass are those of its arithmetic progression that the image has (R235). -/
theorem lt_passDim_iff {n o s i : Nat} (hs : 1 ≤ s) : i < passDim n o s ↔ o + i * s < n := by
  unfold passDim divUp
  split_ifs with ho
  · rw [← Nat.succ_le_iff, Nat.le_div_iff_mul_le hs, Nat.succ_mul]
    omega
  · omega

/-- A column (or row) of the image is in a pass exactly when it leaves the pass's remainder, and then its number is the
quotient. -/
theorem passDim_covers_iff {n o s i x : Nat} (ho : o < s) (hx : x < n) :
    i < passDim n o s ∧ x = o + i * s ↔ x % s = o ∧ i = x / s := by
  rw [lt_passDim_iff (Nat.one_le_of_lt ho)]
  constructor
  · rintro ⟨_, rfl⟩
    rw [Nat.add_mul_mod_self_right, Nat.mod_eq_of_lt ho, Nat.add_mul_div_right _ _ (Nat.zero_lt_of_lt ho),
      Nat.div_eq_of_lt ho, Nat.zero_add]
    exact ⟨rfl, rfl⟩
  · rintro ⟨rfl, rfl⟩
    rw [Nat.mod_add_div']
    exact ⟨hx, rfl⟩

theorem passGeometry_first_lt_step (q : Nat) :
    (passGeometry q).xo < (passGeometry q).xs ∧ (passGeometry q).yo < (passGeometry q).ys := by
  unfold passGeometry
  split <;> decide

/-- The Adam7 pass of a pixel, the finest grid first. -/
def passOfPixel (col row : Nat) : Nat :=
  if row % 2 = 1 then 7 else if col % 2 = 1 then 6 else if row % 4 = 2 then 5 else if col % 4 = 2 then 4
  else if row % 8 = 4 then 3 else if col % 8 = 4 then 2 else 1

theorem passOfPixel_bounds (col row : Nat) : 1 ≤ passOfPixel col row ∧ passOfPixel col row ≤ 7 := by
  unfold passOfPixel
  split_ifs <;> decide

/-- The grids of the seven passes are disjoint and leave nothing out. -/
theorem pixel_on_grid_iff {q : Nat} (h1 : 1 ≤ q) (h7 : q ≤ 7) (col row : Nat) :
    (col % (passGeometry q).xs = (passGeometry q).xo ∧ row % (passGeometry q).ys = (passGeometry q).yo)
      ↔ q = passOfPixel col row := by
  unfold passOfPixel
  interval_cases q <;> (simp only [passGeometry]; split_ifs <;> omega)

/-- Pixel (i, j) of pass q is the image's pixel (col, row) exactly when q is that pixel's pass and (i, j) its place there. -/
theorem passPixel_iff {d : Drv} {col row q i j : Nat} (hc : col < d.width.toNat) (hr : row < d.height.toNat) :
    (1 ≤ q ∧ q ≤ 7 ∧ i < passWidth d q ∧ j < passHeight d q
        ∧ col = (passGeometry q).xo + i * (passGeometry q).xs ∧ row = (passGeometry q).yo + j * (passGeometry q).ys)
      ↔ q = passOfPixel col row ∧ i = col / (passGeometry q).xs ∧ j = row / (passGeometry q).ys := by
  obtain ⟨hxo, hyo⟩ := passGeometry_first_lt_step q
  have hcol := passDim_covers_iff (i := i) hxo hc
  have hrow := passDim_covers_iff (i := j) hyo hr
  constructor
  · rintro ⟨h1, h7, hi, hj, hci, hrj⟩
    obtain ⟨hxm, hi⟩ := hcol.1 ⟨hi, hci⟩
    obtain ⟨hym, hj⟩ := hrow.1 ⟨hj, hrj⟩
    exact ⟨(pixel_on_grid_iff h1 h7 col row).1 ⟨hxm, hym⟩, hi, hj⟩
  · rintro ⟨hq, hi, hj⟩
    obtain ⟨h1, h7⟩ : 1 ≤ q ∧ q ≤ 7 := hq ▸ passOfPixel_bounds col row
    obtain ⟨hxm, hym⟩ := (pixel_on_grid_iff h1 h7 col row).2 hq
    obtain ⟨hi, hci⟩ := hcol.2 ⟨hxm, hi⟩
    obtain ⟨hj, hrj⟩ := hrow.2 ⟨hym, hj⟩
    exact ⟨h1, h7, hi, hj, hci, hrj⟩

end Sys2Proof.Machine

open Sys2Proof Sys2Proof.Machine

/-- Settles O30: the one pass is that of the pixel's remainders, and its place there is given by the quotients. -/
theorem passesPartitionTheImage : Obligations.PassesPartitionTheImage := by
  intro d col row hc hr
  refine ⟨(passOfPixel col row, col / (passGeometry (passOfPixel col row)).xs, row / (passGeometry (passOfPixel col row)).ys),
    (passPixel_iff hc hr).2 ⟨rfl, rfl, rfl⟩, ?_⟩
  rintro ⟨q, i, j⟩ h
  have hplace : q = _ ∧ i = _ ∧ j = _ := (passPixel_iff hc hr).1 h
  obtain ⟨rfl, rfl, rfl⟩ := hplace
  rfl
end

section
/-! SUPPORT. The answer `continue` (R298): what every `RowAdvance` does (R232), and its three ways on (R235, R300). -/

namespace Sys2Proof.Machine

/-! ### StartPass (R233) -/

theorem startPass_curRow (q : Nat) (s : State) : (startPass q s).curRow = s.curRow := State.curRow_setPrevRow s _

theorem startPass_prevRow (q : Nat) (s : State) : (startPass q s).prevRow = s.prevRow.zeroBelow s.params.maxStride :=
  State.prevRow_setPrevRow s _

theorem startPass_win (q : Nat) (s : State) : (startPass q s).mem.win = s.mem.win := State.setPrevRow_win s _

theorem startPass_pal (q : Nat) (s : State) : (startPass q s).mem.pal = s.mem.pal := State.setPrevRow_pal s _

/-! ### RowAdvance (R232) -/

/-- `s` with the row buffers' roles swapped, at the start of the next row. -/
def rowSwapped (s : State) : State :=
  s.setFlt { s.flt with cursel := !s.flt.cursel, rphase := .tag, rx := 0, prow := s.flt.prow + 1 }

theorem rowSwapped_prevRow (s : State) : (rowSwapped s).prevRow = s.curRow := congrArg s.mem.rowbuf (Bool.not_not _)

/-- `t` is `s` turned to another row: the previous row's buffer is the current one, and only FLT, the row buffers and DRV may
have moved. -/
structure RowTurned (s t : State) : Prop where
  rout : t.rout = s.rout
  inf : t.inf = s.inf
  pix : t.pix = s.pix
  env : t.env = s.env
  params : t.params = s.params
  win : t.mem.win = s.mem.win
  pal : t.mem.pal = s.mem.pal
  cursel : t.flt.cursel = !s.flt.cursel
  rphase : t.flt.rphase = .tag
  rx : t.flt.rx = 0
  ftype : t.flt.ftype = s.flt.ftype
  curRow : t.curRow = s.prevRow

theorem rowTurned_rowSwapped (s : State) : RowTurned s (rowSwapped s) := by constructor <;> rfl

theorem RowTurned.setDrv {s t : State} (h : RowTurned s t) (d : Drv) : RowTurned s (t.setDrv d) := { h with }

theorem RowTurned.startPass {s t : State} (h : RowTurned s t) (q : Nat) : RowTurned s (startPass q t) :=
  { h with
    win := (startPass_win q t).trans h.win
    pal := (startPass_pal q t).trans h.pal
    rphase := rfl
    rx := rfl
    curRow := (startPass_curRow q t).trans h.curRow }

theorem rowTurned_rowAdvance (s : State) : RowTurned s (rowAdvance s) := by
  obtain ⟨s1, rfl, ⟨_, hadv⟩ | ⟨_, _, hadv⟩ | ⟨_, _, q, _, hadv⟩⟩ := rowAdvance_cases s <;> rw [hadv]
  · exact rowTurned_rowSwapped s
  · exact (rowTurned_rowSwapped s).setDrv _
  · exact (rowTurned_rowSwapped s).startPass q

theorem rowAdvance_midPass {s : State} (h : s.flt.prow + 1 ≠ s.flt.ph) : rowAdvance s = rowSwapped s := if_neg h

theorem rowAdvance_lastPass {s : State} (h : s.flt.prow + 1 = s.flt.ph)
    (hlast : s.drv.interlace ≠ 1 ∨ NoNextPass s.drv (s.flt.pass.toNat + 1)) :
    rowAdvance s = (rowSwapped s).setDrv { s.drv with dstate := .done } := by
  have hnone : (if s.drv.interlace = 1 then nextPass s.drv (s.flt.pass.toNat + 1) else none) = none :=
    ite_eq_right_iff.2 fun hi => nextPass_eq_none.2 (hlast.resolve_left (not_not.2 hi))
  rw [rowAdvance, if_pos h, hnone]
  rfl

theorem rowAdvance_nextPass {s : State} {q : Nat} (h : s.flt.prow + 1 = s.flt.ph) (hi : s.drv.interlace = 1)
    (hq : IsNextPass s.drv (s.flt.pass.toNat + 1) q) : rowAdvance s = startPass q (rowSwapped s) := by
  rw [rowAdvance, if_pos h, if_pos hi, nextPass_eq_some.2 hq]
  rfl

/-! ### The answer (R298) -/

/-- `s` with its pending row answered (R366). -/
def rowAnswered (s : State) : State := (s.setRout none).setDrv { s.drv with rowPending := false }

theorem exec_answerContinue {s : State} (h : s.drv.rowPending = true) :
    exec .answerContinue s = .next (rowAdvance (rowAnswered s)) := if_pos h

end Sys2Proof.Machine

open Sys2Proof Sys2Proof.Machine

/-- Settles O41: what every way on shares, then the way on by the row's and the pass's place. -/
theorem continueAdvancesTheRow : Obligations.ContinueAdvancesTheRow := by
  intro s hpending
  obtain ⟨hrout, hinf, hpix, henv, hparams, hwin, hpal, hcursel, hrphase, hrx, hftype, hcurRow⟩ :=
    rowTurned_rowAdvance (rowAnswered s)
  refine ⟨_, exec_answerContinue hpending, hrout, hinf, hpix, henv, hparams, hwin, hpal, hcursel, hrphase, hrx, hftype, hcurRow,
    fun hmid => ?_, fun hend hlast => ?_, fun q hend hi hq => ?_⟩
  · rw [rowAdvance_midPass (s := rowAnswered s) hmid]
    exact ⟨rfl, rowSwapped_prevRow (rowAnswered s), rfl⟩
  · rw [rowAdvance_lastPass (s := rowAnswered s) hend hlast]
    exact ⟨rfl, rowSwapped_prevRow (rowAnswered s), rfl⟩
  · rw [rowAdvance_nextPass (s := rowAnswered s) hend hi hq]
    refine ⟨rfl, rfl, rfl, rfl, rfl, rfl, fun x hx => ?_⟩
    rw [startPass_prevRow, Cells.read_zeroBelow]
    exact if_pos hx
end

section
/-! SUPPORT. The pixel formats (44_pixels): the record that a converted row presents (R280), a sample as a number (R251), each
format's pixel in the words of the claims, and the bits of the row that a pixel is made of (R256). -/

namespace Sys2Proof.Machine

/-! ### The record of a converted row (R280) -/

/-- The record that a row presents whose pixels are `px`. -/
def rowRecord (px : Nat → List Byte) (s : State) : RowRecord where
  x := BitVec.ofNat 32 (passGeometry s.flt.pass.toNat).xo
  y := BitVec.ofNat 32 ((passGeometry s.flt.pass.toNat).yo + s.flt.prow.toNat * (passGeometry s.flt.pass.toNat).ys)
  width := s.flt.pw
  xstep := BitVec.ofNat 4 (passGeometry s.flt.pass.toNat).xs
  bpp := BitVec.ofNat 8 (8 * s.och)
  pixtype := s.drv.colortype
  palette := .thisCore
  pixels := (List.range s.flt.pw.toNat).flatMap px

theorem presentRow_eq (px : Nat → List Byte) (s : State) : presentRow px s = .next (presented (rowRecord px s) s) := rfl

theorem passGeometry_xs_le (q : Nat) : (passGeometry q).xs ≤ 8 := by
  unfold passGeometry
  split <;> decide

theorem och_le (s : State) : s.och ≤ 4 := by
  unfold State.och
  split
  case h_1 | h_2 | h_3 => split <;> decide
  all_goals decide

theorem rowRecord_tags (px : Nat → List Byte) (s : State) : RecordTags s (rowRecord px s) where
  x := by
    have hfirst := (passGeometry_first_lt_step s.flt.pass.toNat).1
    have hstep := passGeometry_xs_le s.flt.pass.toNat
    exact Nat.mod_eq_of_lt (by omega)
  y := rfl
  width := rfl
  xstep := Nat.mod_eq_of_lt (by have := passGeometry_xs_le s.flt.pass.toNat; omega)
  bpp := Nat.mod_eq_of_lt (by have := och_le s; omega)
  pixtype := rfl

/-- The row reaches its record through the pixels alone. -/
theorem rowRecord_setCurRow {px px' : Nat → List Byte} {s : State} (row : Cells 8)
    (h : ∀ k, k < s.flt.pw.toNat → px' k = px k) : rowRecord px' (s.setCurRow row) = rowRecord px s := by
  have hpixels : (List.range s.flt.pw.toNat).flatMap px' = (List.range s.flt.pw.toNat).flatMap px :=
    List.flatMap_congr fun k hk => h k (List.mem_range.1 hk)
  rw [rowRecord, State.setCurRow_flt, hpixels]
  rfl

theorem length_rowRecord_pixels {px : Nat → List Byte} {n : Nat} (h : ∀ k, (px k).length = n) (s : State) :
    (rowRecord px s).pixels.length = s.flt.pw.toNat * n := by
  simp [rowRecord, List.length_flatMap, h]

/-- What a converted format's row does, in the form of the claims: it presents a record with the right tags and these pixels. -/
theorem presents_of_pixel {i : Instr} {s : State} {px f : Nat → List Byte} (hrow : exec i s = presentRow px s)
    (hpx : ∀ k, px k = f k) :
    ∃ r, exec i s = .next (presented r s) ∧ RecordTags s r ∧ r.pixels = (List.range s.flt.pw.toNat).flatMap f :=
  ⟨rowRecord px s, hrow.trans (presentRow_eq px s), rowRecord_tags px s,
    congrArg (List.range s.flt.pw.toNat).flatMap (funext hpx)⟩

/-! ### Samples (R251) -/

/-- The depths of the samples that are converted (R251). -/
def SampleDepth (d : Nat) : Prop := d = 1 ∨ d = 2 ∨ d = 4 ∨ d = 8

theorem SampleDepth.le_eight {d : Nat} (h : SampleDepth d) : d ≤ 8 := by
  rcases h with rfl | rfl | rfl | rfl <;> decide

theorem unpack_toNat {d : Nat} (hd : d ≤ 8) (row : Cells 8) (k : Nat) : (unpack row k d).toNat = sampleNat row k d := by
  have hmask : (BitVec.ofNat 8 (2 ^ d - 1)).toNat = 2 ^ d - 1 :=
    Nat.mod_eq_of_lt (by have := Nat.pow_le_pow_right (n := 2) (by decide) hd; have := Nat.two_pow_pos d; omega)
  rw [unpack, BitVec.toNat_and, hmask, Nat.and_two_pow_sub_one_eq_mod, BitVec.toNat_ushiftRight, Nat.shiftRight_eq_div_pow,
    sampleNat]

theorem unpack_eight (row : Cells 8) (k : Nat) : unpack row k 8 = row.read k := by
  refine BitVec.eq_of_toNat_eq ?_
  rw [unpack_toNat le_rfl, sampleNat, Nat.mul_div_cancel k (by decide), Nat.mul_mod_left]
  simpa using (row.read k).isLt

/-- At depth 8 too, the sample is the row's bits at its place. -/
theorem sample_eq_unpack (s : State) (k d : Nat) : s.sample k d = unpack s.curRow k d := by
  unfold State.sample
  split
  case isTrue h => rw [h, unpack_eight]
  case isFalse => rfl

theorem sample_toNat {d : Nat} (hd : SampleDepth d) (s : State) (k : Nat) : (s.sample k d).toNat = sampleNat s.curRow k d := by
  rw [sample_eq_unpack, unpack_toNat hd.le_eight]

/-! ### The pixels of the formats (R250, R252 to R254, R262) -/

theorem keyApplied_iff (s : State) : s.keyApplied = true ↔ s.params.applyColorKey = true ∧ s.pix.trnsValid = true :=
  Bool.and_eq_true_iff

theorem setWidth_eq_iff_toNat (v : Byte) (key : BitVec 16) : v.setWidth 16 = key ↔ v.toNat = key.toNat := by
  rw [← BitVec.toNat_inj, BitVec.toNat_setWidth_of_le (by decide)]

theorem scaleGray_eq {d : Nat} (hd : SampleDepth d) (v : Byte) :
    scaleGray v d = BitVec.ofNat 8 (v.toNat * 255 / (2 ^ d - 1)) := by
  refine BitVec.eq_of_toNat_eq ?_
  have hv := v.isLt
  rcases hd with rfl | rfl | rfl | rfl <;>
    simp only [scaleGray, BitVec.toNat_mul, BitVec.toNat_ofNat, BitVec.reduceToNat, Nat.reducePow, Nat.reduceSub] <;> omega

theorem grayPixel_eq {d : Nat} (hd : SampleDepth d) (s : State) (k : Nat) :
    grayPixel s d k = BitVec.ofNat 8 (sampleNat s.curRow k d * 255 / (2 ^ d - 1))
      :: (if s.params.applyColorKey = true ∧ s.pix.trnsValid = true
          then [if sampleNat s.curRow k d = s.pix.trnsGray.toNat then 0 else 255] else []) := by
  simp only [grayPixel, grayAlpha, scaleGray_eq hd, setWidth_eq_iff_toNat, keyApplied_iff, sample_toNat hd]

theorem palLookup_eq (m : Memory) (v : Byte) :
    palLookup m v = [BitVec.ofNat 8 ((m.pal.read v.toNat).toNat / 65536), BitVec.ofNat 8 ((m.pal.read v.toNat).toNat / 256),
      BitVec.ofNat 8 (m.pal.read v.toNat).toNat] := by
  simp only [palLookup, BitVec.extractLsb', Nat.shiftRight_eq_div_pow, Nat.reducePow, Nat.div_one]

theorem indexedPixel_eq {d : Nat} (hd : SampleDepth d) (s : State) (k : Nat) :
    indexedPixel s d k = [BitVec.ofNat 8 ((s.mem.pal.read (sampleNat s.curRow k d)).toNat / 65536),
        BitVec.ofNat 8 ((s.mem.pal.read (sampleNat s.curRow k d)).toNat / 256),
        BitVec.ofNat 8 (s.mem.pal.read (sampleNat s.curRow k d)).toNat]
      ++ (if s.pix.trnsValid = true
          then [if sampleNat s.curRow k d = s.pix.trnsIndex.toNat then 0 else 255] else []) := by
  simp only [indexedPixel, palLookup_eq, indexAlpha, ← BitVec.toNat_inj, sample_toNat hd]

theorem rgbPixel_eq (s : State) (k : Nat) :
    rgbPixel s k = [s.curRow.read (3 * k), s.curRow.read (3 * k + 1), s.curRow.read (3 * k + 2)]
      ++ (if s.params.applyColorKey = true ∧ s.pix.trnsValid = true
          then [if (s.curRow.read (3 * k)).toNat = s.pix.trnsR.toNat
                  ∧ (s.curRow.read (3 * k + 1)).toNat = s.pix.trnsG.toNat
                  ∧ (s.curRow.read (3 * k + 2)).toNat = s.pix.trnsB.toNat then 0 else 255] else []) := by
  simp only [rgbPixel, rgbAlpha, setWidth_eq_iff_toNat, keyApplied_iff]

/-! ### The format of a pair (COLORTYPE, BITDEPTH) (R263 to R278) -/

theorem convertedPair_iff (ct bd : Nat) : (ct, bd) ∈ namedPixelPairs.take 11 ↔
    (ct = 0 ∧ SampleDepth bd) ∨ (ct = 2 ∧ bd = 8) ∨ (ct = 3 ∧ SampleDepth bd) ∨ (ct = 4 ∧ bd = 8) ∨ (ct = 6 ∧ bd = 8) := by
  simp only [SampleDepth, namedPixelPairs, List.cons_append, List.nil_append, List.take_succ_cons, List.take_zero,
    List.mem_cons, Prod.mk.injEq, List.not_mem_nil, or_false]
  omega

/-- The pixel of a pair's format. The depth counts only where samples may share a byte: the other colour types are converted at
depth 8 alone. -/
def formatPixel (ct bd : Byte) (s : State) : Nat → List Byte :=
  match ct.toNat with
  | 0 => grayPixel s bd.toNat
  | 2 => rgbPixel s
  | 3 => indexedPixel s bd.toNat
  | 4 => grayAlphaPixel s
  | _ => rgbaPixel s

/-- The row of a pair presents its format's pixels if the pair is converted, and is refused if it is not. -/
theorem exec_decodePixfmt (ct bd : Byte) (s : State) :
    exec (decodePixfmt ct bd) s
      = if (ct.toNat, bd.toNat) ∈ namedPixelPairs.take 11 then presentRow (formatPixel ct bd s) s else raiseUnsupported s := by
  unfold decodePixfmt
  split
  case h_16 =>
    have hother : (ct.toNat, bd.toNat) ∉ namedPixelPairs.take 11 := by
      rw [convertedPair_iff, SampleDepth]
      simp_all
    exact (if_neg hother).symm
  all_goals
    rename_i hct hbd
    simp only [formatPixel, hct, hbd]
    rfl

/-! ### The bits of a pixel (R251, R256) -/

/-- Pixel `k` has the same bits in both rows, at `bpx` bits per pixel. -/
def SamePixel (bpx k : Nat) (row row' : Cells 8) : Prop := ∀ j, j < bpx → rowBit row (bpx * k + j) = rowBit row' (bpx * k + j)

theorem samePixel_of_agree {bpx n k : Nat} {row row' : Cells 8} (h : ∀ j, j < bpx * n → rowBit row j = rowBit row' j)
    (hk : k < n) : SamePixel bpx k row row' := fun j hj => h _ <|
  calc bpx * k + j < bpx * (k + 1) := by rw [Nat.mul_succ]; omega
    _ ≤ bpx * n := Nat.mul_le_mul_left bpx hk

/-- Bit `j` of a sample, the least significant first, is the row's bit `j` places before the sample's last. -/
theorem unpack_getLsbD {d j : Nat} (hd : SampleDepth d) (hj : j < d) (row : Cells 8) (k : Nat) :
    (unpack row k d).getLsbD j = rowBit row (d * k + (d - 1 - j)) := by
  have hbyte : (d * k + (d - 1 - j)) / 8 = k * d / 8 := by rcases hd with rfl | rfl | rfl | rfl <;> omega
  have hbit : 7 - (d * k + (d - 1 - j)) % 8 = 8 - d - k * d % 8 + j := by rcases hd with rfl | rfl | rfl | rfl <;> omega
  have hmask : (BitVec.ofNat 8 (2 ^ d - 1)).getLsbD j = true := by
    have hle := hd.le_eight
    simp only [BitVec.getLsbD_ofNat, Nat.testBit_two_pow_sub_one, hj, decide_true, Bool.and_true, decide_eq_true_eq]
    omega
  rw [unpack, BitVec.getLsbD_and, BitVec.getLsbD_ushiftRight, hmask, Bool.and_true, rowBit, hbyte, hbit]

theorem unpack_lt {d : Nat} (hd : d ≤ 8) (row : Cells 8) (k : Nat) : (unpack row k d).toNat < 2 ^ d := by
  rw [unpack_toNat hd]
  exact Nat.mod_lt _ (Nat.two_pow_pos d)

theorem SamePixel.unpack_eq {d k : Nat} {row row' : Cells 8} (h : SamePixel d k row row') (hd : SampleDepth d) :
    unpack row k d = unpack row' k d := by
  refine BitVec.eq_of_getLsbD_eq fun j _ => ?_
  by_cases hj : j < d
  · rw [unpack_getLsbD hd hj, unpack_getLsbD hd hj, h _ (by omega)]
  · have hhigh : ∀ r : Cells 8, (unpack r k d).getLsbD j = false := fun r =>
      Nat.testBit_lt_two_pow ((unpack_lt hd.le_eight r k).trans_le (Nat.pow_le_pow_right (by decide) (not_lt.1 hj)))
    rw [hhigh, hhigh]

/-- The bytes of a pixel of `n` bytes. -/
theorem SamePixel.read_eq {n k c : Nat} {row row' : Cells 8} (h : SamePixel (8 * n) k row row') (hc : c < n) :
    row.read (n * k + c) = row'.read (n * k + c) := by
  have hplace : ∀ j, 8 * (n * k + c) + j = 8 * n * k + (8 * c + j) := fun j => by ring
  have hbyte : SamePixel 8 (n * k + c) row row' := fun j hj => by
    rw [hplace]
    exact h _ (by omega)
  rw [← unpack_eight, ← unpack_eight, hbyte.unpack_eq (.inr (.inr (.inr rfl)))]

theorem SamePixel.sample_setCurRow {d k : Nat} {row : Cells 8} {s : State} (h : SamePixel d k row s.curRow) (hd : SampleDepth d) :
    (s.setCurRow row).sample k d = s.sample k d := by
  rw [sample_eq_unpack, sample_eq_unpack, State.curRow_setCurRow, h.unpack_eq hd]

section
variable {row : Cells 8} {s : State} {k : Nat}

theorem SamePixel.grayPixel_setCurRow {d : Nat} (h : SamePixel d k row s.curRow) (hd : SampleDepth d) :
    grayPixel (s.setCurRow row) d k = grayPixel s d k := by
  rw [grayPixel, h.sample_setCurRow hd]
  rfl

theorem SamePixel.indexedPixel_setCurRow {d : Nat} (h : SamePixel d k row s.curRow) (hd : SampleDepth d) :
    indexedPixel (s.setCurRow row) d k = indexedPixel s d k := by
  rw [indexedPixel, h.sample_setCurRow hd, palLookup, State.setCurRow_pal]
  rfl

theorem SamePixel.rgbPixel_setCurRow (h : SamePixel (8 * 3) k row s.curRow) : rgbPixel (s.setCurRow row) k = rgbPixel s k := by
  have h0 : row.read (3 * k) = s.curRow.read (3 * k) := h.read_eq (c := 0) (by decide)
  rw [rgbPixel, State.curRow_setCurRow, h0, h.read_eq (c := 1) (by decide), h.read_eq (c := 2) (by decide)]
  rfl

theorem SamePixel.grayAlphaPixel_setCurRow (h : SamePixel (8 * 2) k row s.curRow) :
    grayAlphaPixel (s.setCurRow row) k = grayAlphaPixel s k := by
  have h0 : row.read (2 * k) = s.curRow.read (2 * k) := h.read_eq (c := 0) (by decide)
  rw [grayAlphaPixel, State.curRow_setCurRow, h0, h.read_eq (c := 1) (by decide)]
  rfl

theorem SamePixel.rgbaPixel_setCurRow (h : SamePixel (8 * 4) k row s.curRow) : rgbaPixel (s.setCurRow row) k = rgbaPixel s k := by
  have h0 : row.read (4 * k) = s.curRow.read (4 * k) := h.read_eq (c := 0) (by decide)
  rw [rgbaPixel, State.curRow_setCurRow, h0, h.read_eq (c := 1) (by decide), h.read_eq (c := 2) (by decide),
    h.read_eq (c := 3) (by decide)]
  rfl

/-- R256: a pixel of a converted row is made of its own bits. -/
theorem SamePixel.formatPixel_setCurRow {d : Drv} (hconv : d.converted = true) (h : SamePixel d.bpx k row s.curRow) :
    formatPixel d.colortype d.bitdepth (s.setCurRow row) k = formatPixel d.colortype d.bitdepth s k := by
  rcases (convertedPair_iff _ _).1 (List.contains_iff_mem.1 hconv) with
    ⟨hct, hd⟩ | ⟨hct, hbd⟩ | ⟨hct, hd⟩ | ⟨hct, hbd⟩ | ⟨hct, hbd⟩ <;>
    simp only [formatPixel, Drv.bpx, channels, hct, one_mul] at h ⊢
  · exact h.grayPixel_setCurRow hd
  · exact SamePixel.rgbPixel_setCurRow (by rwa [hbd] at h)
  · exact h.indexedPixel_setCurRow hd
  · exact SamePixel.grayAlphaPixel_setCurRow (by rwa [hbd] at h)
  · exact SamePixel.rgbaPixel_setCurRow (by rwa [hbd] at h)

end

/-! ### The length of a pixel (R250) -/

/-- R250: a pixel has OCH bytes. -/
theorem length_formatPixel {s : State} (hconv : s.drv.converted = true) (k : Nat) :
    (formatPixel s.drv.colortype s.drv.bitdepth s k).length = s.och := by
  rcases (convertedPair_iff _ _).1 (List.contains_iff_mem.1 hconv) with
    ⟨hct, _⟩ | ⟨hct, _⟩ | ⟨hct, _⟩ | ⟨hct, _⟩ | ⟨hct, _⟩ <;> simp only [formatPixel, State.och, hct]
  · rw [grayPixel, grayAlpha]
    split <;> rfl
  · rw [rgbPixel, rgbAlpha]
    split <;> rfl
  · rw [indexedPixel, palLookup, indexAlpha]
    split <;> rfl
  · rfl
  · rfl

end Sys2Proof.Machine

open Sys2Proof Sys2Proof.Machine

/-- Settles O31: each of the four rows presents `grayPixel` at its depth. -/
theorem greyscaleRowsAreConverted : Obligations.GreyscaleRowsAreConverted := by
  intro i d s hrow
  rcases hrow with ⟨rfl, rfl⟩ | ⟨rfl, rfl⟩ | ⟨rfl, rfl⟩ | ⟨rfl, rfl⟩ <;>
    exact presents_of_pixel rfl (grayPixel_eq (by simp [SampleDepth]) s)

/-- Settles O32: each of the four rows presents `indexedPixel` at its depth. -/
theorem indexedRowsAreConverted : Obligations.IndexedRowsAreConverted := by
  intro i d s hrow
  rcases hrow with ⟨rfl, rfl⟩ | ⟨rfl, rfl⟩ | ⟨rfl, rfl⟩ | ⟨rfl, rfl⟩ <;>
    exact presents_of_pixel rfl (indexedPixel_eq (by simp [SampleDepth]) s)

/-- Settles O33: the pixels of the two formats with an alpha channel are the row's bytes as they stand. -/
theorem passedThroughRowsAreConverted : Obligations.PassedThroughRowsAreConverted := fun s =>
  ⟨presents_of_pixel rfl (rgbPixel_eq s), presents_of_pixel (px := grayAlphaPixel s) rfl fun _ => rfl,
    presents_of_pixel (px := rgbaPixel s) rfl fun _ => rfl⟩

/-- Settles O34: pixel by pixel, each being made of its own bits. -/
theorem paddingBitsAreIgnored : Obligations.PaddingBitsAreIgnored := by
  intro s row hconv hagree
  have hexec : ∀ t, exec (decodePixfmt s.drv.colortype s.drv.bitdepth) t
      = .next (presented (rowRecord (formatPixel s.drv.colortype s.drv.bitdepth t) t) t) := fun t =>
    ((exec_decodePixfmt _ _ t).trans (if_pos (List.contains_iff_mem.1 hconv))).trans (presentRow_eq _ t)
  have hrecord : rowRecord (formatPixel s.drv.colortype s.drv.bitdepth (s.setCurRow row)) (s.setCurRow row)
      = rowRecord (formatPixel s.drv.colortype s.drv.bitdepth s) s :=
    rowRecord_setCurRow row fun k hk => (samePixel_of_agree hagree hk).formatPixel_setCurRow hconv
  exact ⟨_, hexec s, by rw [hexec, hrecord], length_rowRecord_pixels (length_formatPixel hconv) s⟩

/-- Settles O35: a pair outside the eleven has a row that raises. -/
theorem unconvertedFormatsAreRefused : Obligations.UnconvertedFormatsAreRefused := by
  intro ct bd s hother
  have hpair : (ct.toNat, bd.toNat) ∉ namedPixelPairs.take 11 := by
    rw [convertedPair_iff]
    simpa only [SampleDepth, ← BitVec.toNat_inj, BitVec.reduceToNat] using hother
  exact (exec_decodePixfmt ct bd s).trans (if_neg hpair)
end

section
/-! SUPPORT. The commands and answers by state (R292, R293, R299, R302): when COMMIT_HEADER accepts, the geometry of the pass that
START begins, and what a CFG access can do to a core that is decoding (R305, R371). -/

namespace Sys2Proof.Machine

/-! ### Commands -/

/-- The row of each command code (R88, R302). -/
theorem exec_decodeCmd_byCode (w : Nat) (s : State) :
    (w % 8 = 1 ∧ exec (decodeCmd w) s = execReset s)
    ∨ (w % 8 = 2 ∧ exec (decodeCmd w) s = execCommitHeader s)
    ∨ (w % 8 = 3 ∧ exec (decodeCmd w) s = execStart s)
    ∨ ((w % 8 ≠ 1 ∧ w % 8 ≠ 2 ∧ w % 8 ≠ 3) ∧ exec (decodeCmd w) s = invalidCommand s) := by
  unfold decodeCmd
  split
  case h_1 h => exact .inr (.inr (.inr ⟨by omega, rfl⟩))
  case h_2 h => exact .inl ⟨h, rfl⟩
  case h_3 h => exact .inr (.inl ⟨h, rfl⟩)
  case h_4 h => exact .inr (.inr (.inl ⟨h, rfl⟩))
  case h_5 h1 h2 h3 => exact .inr (.inr (.inr ⟨⟨h1, h2, h3⟩, rfl⟩))

theorem decodeCmd_mod (w : Nat) : decodeCmd (w % 8) = decodeCmd w := by
  rw [decodeCmd, Nat.mod_mod]
  rfl

theorem exec_decodeCmd_illegal {w : Nat} (hw : w % 8 = 0 ∨ 4 ≤ w % 8) (s : State) :
    exec (decodeCmd w) s = invalidCommand s := by
  rcases exec_decodeCmd_byCode w s with ⟨h, _⟩ | ⟨h, _⟩ | ⟨h, _⟩ | ⟨_, h⟩
  case inr.inr.inr => exact h
  all_goals omega

theorem execCommitHeader_late {s : State} (h : s.drv.dstate ≠ .uninit) : execCommitHeader s = invalidCommand s := if_pos h

theorem execStart_outside {s : State} (h : s.drv.dstate ≠ .headerReady) : execStart s = invalidCommand s := if_pos h

/-! ### The header check (R292) -/

/-- An unconverted format is refused by its own row, and a converted one goes on to the other checks. -/
theorem execCommitHeader_eq {s : State} (hd : s.drv.dstate = .uninit) :
    execCommitHeader s = if s.headerOk then .next (s.setDrv { s.drv with dstate := .headerReady, cmdstat := .success })
      else raiseUnsupported s := by
  by_cases hconv : s.drv.converted = true
  · have hcommit : execCommitHeader s = commitConverted s := by
      rcases (convertedPair_iff _ _).1 (List.contains_iff_mem.1 hconv) with
        ⟨hct, hbd | hbd | hbd | hbd⟩ | ⟨hct, hbd⟩ | ⟨hct, hbd | hbd | hbd | hbd⟩ | ⟨hct, hbd⟩ | ⟨hct, hbd⟩ <;>
        rw [execCommitHeader, if_neg (not_not.2 hd), decodePixfmt, hct, hbd] <;> rfl
    rw [hcommit, commitConverted, State.headerOk, hconv, Bool.true_and]
  · have hok : ¬ s.headerOk = true := fun h => hconv (Bool.and_eq_true_iff.1 h).1
    rw [if_neg hok]
    exact (execCommitHeader_cases hd).resolve_right fun h => hconv h.1

/-- An accepted header in the words of R292. -/
theorem headerOk_iff (s : State) : s.headerOk = true ↔
    (s.drv.colortype.toNat, s.drv.bitdepth.toNat) ∈ namedPixelPairs.take 11
      ∧ (s.drv.interlace = 0 ∨ s.drv.interlace = 1) ∧ 1 ≤ s.drv.width.toNat ∧ 1 ≤ s.drv.height.toNat
      ∧ s.drv.stride s.drv.width.toNat ≤ s.params.maxStride := by
  have hinterlace : s.drv.interlace.toNat ≤ 1 ↔ s.drv.interlace = 0 ∨ s.drv.interlace = 1 := by bv_omega
  rw [State.headerOk, Bool.and_eq_true, headerFits_iff, hinterlace, Drv.converted, List.contains_iff_mem]

/-! ### The first pass (R293, R233, R235) -/

/-- The two passes that an image can begin with start in its corner, so their size is the image's, rounded up. -/
theorem passSize_of_corner {d : Drv} {q : Nat} (hq : q = 0 ∨ q = 1) (hw : 1 ≤ d.width.toNat) (hh : 1 ≤ d.height.toNat) :
    passWidth d q = divUp d.width.toNat (passGeometry q).xs ∧ passHeight d q = divUp d.height.toNat (passGeometry q).ys := by
  have hcorner : ∀ n s, 1 ≤ n → passDim n 0 s = divUp n s := fun n s hn => if_pos hn
  rcases hq with rfl | rfl <;> exact ⟨hcorner _ _ hw, hcorner _ _ hh⟩

theorem firstPass_eq {d : Drv} (hw : 1 ≤ d.width.toNat) (hh : 1 ≤ d.height.toNat) :
    firstPass d = if d.interlace = 0 then 0 else 1 := by
  obtain ⟨hwidth, hheight⟩ := passSize_of_corner (.inr rfl) hw hh
  have hpixels : PassHasPixels d 1 :=
    ⟨hwidth ▸ divUp_pos hw (passGeometry_steps 1).1, hheight ▸ divUp_pos hh (passGeometry_steps 1).2⟩
  have hone : nextPass d 1 = some 1 := nextPass_eq_some.2 ⟨le_rfl, by decide, hpixels, fun r h1 h2 => by omega⟩
  rw [firstPass, hone, Option.getD_some]

/-- `s` with START's own writes, before the first pass begins. -/
def started (s : State) : State :=
  (s.setDrv { s.drv with dstate := .decoding, cmdstat := .success }).setInf
    { s.inf with infState := if s.drv.rawDeflate then .blkhdr else .zhdr }

theorem execStart_headerReady {s : State} (h : s.drv.dstate = .headerReady) :
    execStart s = .next (startPass (firstPass s.drv) (started s)) := if_neg (not_not.2 h)

/-! ### Answers -/

theorem exec_answerStop {s : State} (h : s.drv.rowPending = true) :
    exec .answerStop s = .next ((s.setRout none).setDrv
      { s.drv with rowPending := false, stopped := true, dstate := .done }) := if_pos h

/-- R302 c. -/
theorem exec_answer_ignored {s : State} (h : s.drv.rowPending = false) :
    exec .answerContinue s = .next s ∧ exec .answerStop s = .next s :=
  have hno : ¬ s.drv.rowPending = true := by rw [h]; decide
  ⟨if_neg hno, if_neg hno⟩

/-! ### The CFG port -/

/-- A CFG write that has a meaning is a command, or is stored (R32). -/
theorem cfgWrite_next {off : BitVec 11} {data : BitVec 32} {s t : State} (h : cfgWrite off data s = .next t) :
    (off = 0 ∧ exec (decodeCmd data.toNat) s = .next t) ∨ (off ≠ 0 ∧ t = cfgStore off.toNat data s) := by
  unfold cfgWrite at h
  split at h
  · cases h
  split at h
  · rename_i hoff
    rw [runWord_cmd, decodeCmd_mod] at h
    exact .inl ⟨hoff, h⟩
  · rename_i hoff
    cases h
    exact .inr ⟨hoff, rfl⟩

theorem cfgRead_next {off : BitVec 11} {s t : State} (h : cfgRead off s = .next t) :
    t = s.setEnv { s.env with rdata := some (cfgValue s off.toNat) } := by
  unfold cfgRead at h
  split at h
  · cases h
  · cases h; rfl

/-- While the core decodes, a write that is no reset is an illegal command (R302 b) or is outside its window (R294). -/
theorem cfgWrite_decoding {off : BitVec 11} {data : BitVec 32} {s t : State} (hd : s.drv.dstate = .decoding)
    (ha : (EnvAct.cfgWrite off data).isReset = false) (h : cfgWrite off data s = .next t) :
    t = s ∨ t = setCmdstat .invalidParameter s := by
  rcases cfgWrite_next h with ⟨rfl, hcmd⟩ | ⟨_, rfl⟩
  · have hw : data.toNat % 8 ≠ 1 := fun hw => by simp [EnvAct.isReset, hw] at ha
    rw [exec_decodeCmd_decoding hd hw] at hcmd
    cases hcmd
    exact .inr rfl
  · exact .inl (cfgStore_closed _ _ (by rw [hd]; decide) (by rw [hd]; decide))

end Sys2Proof.Machine

open Sys2Proof Sys2Proof.Machine

/-- Settles O37: the conditions of R292 are those that `headerOk` computes, the stride among them without overflow. -/
theorem commitHeaderChecksTheHeader : Obligations.CommitHeaderChecksTheHeader := by
  intro s ok hok
  have haccepts : ok ↔ s.headerOk = true := hok.trans (headerOk_iff s).symm
  refine ⟨execCommitHeader_late, fun hd h => ?_, fun hd h => ?_⟩
  · exact (execCommitHeader_eq hd).trans (if_pos (haccepts.1 h))
  · exact (execCommitHeader_eq hd).trans (if_neg fun hc => h (haccepts.2 hc))

/-- Settles O38: START writes DSTATE, CMDSTAT and INF_STATE, and the rest is `StartPass` of the first pass. -/
theorem startBeginsDecoding : Obligations.StartBeginsDecoding := by
  refine fun s => ⟨execStart_outside, fun hd hw hh => ⟨_, _, execStart_headerReady hd, firstPass_eq hw hh, rfl, rfl, ?_, ?_,
    startPass_curRow _ _, startPass_win _ _, startPass_pal _ _, rfl, rfl, rfl, rfl⟩⟩
  · have hfirst : firstPass s.drv = 0 ∨ firstPass s.drv = 1 := by
      rw [firstPass_eq hw hh]
      split
      · exact .inl rfl
      · exact .inr rfl
    obtain ⟨hwidth, hheight⟩ := passSize_of_corner hfirst hw hh
    rw [← hwidth, ← hheight]
    rfl
  · intro x hx
    rw [startPass_prevRow, Cells.read_zeroBelow]
    exact if_pos hx

/-- Settles O39: by the command's code, by DSTATE, and by ROW_PENDING. -/
theorem illegalCommandsChangeOnlyStatus : Obligations.IllegalCommandsChangeOnlyStatus := by
  refine ⟨fun data s hcode => ⟨?_, runWord_cmd data _⟩, fun s => ?_⟩
  · rw [decodeCmd_mod]
    exact exec_decodeCmd_illegal hcode s
  · exact ⟨execCommitHeader_late, execStart_outside, exec_answer_ignored⟩

/-- Settles O40: the branch of a pending row. -/
theorem stopEndsCleanly : Obligations.StopEndsCleanly := fun _ => exec_answerStop

/-- Settles O54: a write is ignored or an illegal command, and a read answers its data only. -/
theorem onlyResetDisturbsADecode : Obligations.OnlyResetDisturbsADecode := by
  rintro a s t hd hreset (⟨off, data, rfl⟩ | ⟨off, rfl⟩) h
  · rcases cfgWrite_decoding hd hreset h with rfl | rfl <;> rfl
  · cases cfgRead_next h; rfl
end

section
/-! SUPPORT. What moves DSTATE (R290): the events of the core's turn and of the environment's. -/

namespace Sys2Proof.Machine

/-! ### The core's turn -/

/-- A row of the stream moves DSTATE by raising only (R326). -/
theorem coreTurn_dstate {s t : State} (hconv : s.drv.dstate = .decoding → s.drv.converted = true) (h : coreTurn s = .next t) :
    t.drv.dstate = s.drv.dstate
    ∨ (s.drv.dstate = .decoding ∧ t.drv.dstate = .error ∧ t.drv.errcode = .decodeError ∧ s.drv.rowPending = false) := by
  obtain ⟨hd, hp, u, hstep, rfl⟩ := coreTurn_next h
  rcases coreStep_cases hstep with ⟨_, htrap⟩ | ⟨i, k, out, r, hrow⟩ | ⟨_, n, len, dist, hmatch⟩
  · obtain ⟨c, _, rfl⟩ := htrap (hconv hd)
    exact .inr ⟨hd, rfl, rfl, hp⟩
  · rcases hrow.downstream.keepsHostSide.status with ⟨hdrv, _⟩ | ⟨_, hdrv, _⟩ <;>
      exact .inl (by rw [pull_drv, hdrv])
  · exact .inl (congrArg (fun v => v.drv.dstate) hmatch.state)

/-! ### The environment's turn -/

/-- The events of R290's table that are an action of the environment, with what each makes of DSTATE. -/
inductive DstateEvent (s t : State) : EnvAct → Prop
  | reset {a : EnvAct} (ha : a.isReset = true) (ht : t.drv.dstate = .uninit) : DstateEvent s t a
  | commitHeader {data : BitVec 32} (hcode : data.toNat % 8 = 2) (hs : s.drv.dstate = .uninit)
      (ht : t.drv.dstate = .headerReady ∨ (t.drv.dstate = .error ∧ t.drv.errcode = .unsupportedFeature)) :
      DstateEvent s t (.cfgWrite 0 data)
  | start {data : BitVec 32} (hcode : data.toNat % 8 = 3) (hs : s.drv.dstate = .headerReady)
      (ht : t.drv.dstate = .decoding) : DstateEvent s t (.cfgWrite 0 data)
  | answer {bit : BitVec 1} (hs : s.drv.rowPending = true) (ht : t.drv.dstate = .done)
      (hstop : bit = 1 → t.drv.stopped = true) : DstateEvent s t (.answer bit)

theorem invalidCommand_dstate {s t : State} (h : invalidCommand s = .next t) : t.drv.dstate = s.drv.dstate := by
  cases h; rfl

theorem execCommitHeader_dstate {s t : State} (h : execCommitHeader s = .next t) :
    t.drv.dstate = s.drv.dstate
    ∨ (s.drv.dstate = .uninit
      ∧ (t.drv.dstate = .headerReady ∨ (t.drv.dstate = .error ∧ t.drv.errcode = .unsupportedFeature))) := by
  by_cases hd : s.drv.dstate = .uninit
  · refine .inr ⟨hd, ?_⟩
    rw [execCommitHeader_eq hd] at h
    split at h
    · cases h; exact .inl rfl
    · cases h; exact .inr ⟨rfl, rfl⟩
  · exact .inl (invalidCommand_dstate ((execCommitHeader_late hd).symm.trans h))

theorem execStart_dstate {s t : State} (h : execStart s = .next t) :
    t.drv.dstate = s.drv.dstate ∨ (s.drv.dstate = .headerReady ∧ t.drv.dstate = .decoding) := by
  by_cases hd : s.drv.dstate = .headerReady
  · rw [execStart_headerReady hd] at h
    cases h
    exact .inr ⟨hd, rfl⟩
  · exact .inl (invalidCommand_dstate ((execStart_outside hd).symm.trans h))

theorem cfgWrite_dstate {off : BitVec 11} {data : BitVec 32} {s t : State} (h : cfgWrite off data s = .next t) :
    t.drv.dstate = s.drv.dstate ∨ DstateEvent s t (.cfgWrite off data) := by
  rcases cfgWrite_next h with ⟨rfl, hcmd⟩ | ⟨_, rfl⟩
  · rcases exec_decodeCmd_byCode data.toNat s with ⟨hcode, he⟩ | ⟨hcode, he⟩ | ⟨hcode, he⟩ | ⟨_, he⟩ <;> rw [he] at hcmd
    · cases hcmd
      exact .inr (.reset (by simp [EnvAct.isReset, hcode]) rfl)
    · exact (execCommitHeader_dstate hcmd).imp_right fun ⟨hs, ht⟩ => .commitHeader hcode hs ht
    · exact (execStart_dstate hcmd).imp_right fun ⟨hs, ht⟩ => .start hcode hs ht
    · exact .inl (invalidCommand_dstate hcmd)
  · exact .inl (cfgStore_frame _ _ _).dstate

/-- `RowAdvance` goes on decoding, or ends the decode (R232, R300). -/
theorem rowAdvance_dstate (s : State) : (rowAdvance s).drv.dstate = s.drv.dstate ∨ (rowAdvance s).drv.dstate = .done := by
  obtain ⟨s1, rfl, ⟨_, hadv⟩ | ⟨_, _, hadv⟩ | ⟨_, _, q, _, hadv⟩⟩ := rowAdvance_cases s <;> rw [hadv]
  · exact .inl rfl
  · exact .inr rfl
  · exact .inl rfl

theorem answer_dstate {bit : BitVec 1} {s t : State} (h : envAct (.answer bit) s = .next t) :
    t.drv.dstate = s.drv.dstate ∨ DstateEvent s t (.answer bit) := by
  have hrow : exec (if bit = 0 then .answerContinue else .answerStop) s = .next t := (runWord_rowans bit _).symm.trans h
  cases hp : s.drv.rowPending with
  | false =>
    obtain ⟨hcontinue, hstop⟩ := exec_answer_ignored hp
    split at hrow
    · cases hcontinue.symm.trans hrow; exact .inl rfl
    · cases hstop.symm.trans hrow; exact .inl rfl
  | true =>
    split at hrow
    · rename_i hbit
      cases (exec_answerContinue hp).symm.trans hrow
      exact (rowAdvance_dstate (rowAnswered s)).imp_right fun ht => .answer hp ht fun h1 => by simp [hbit] at h1
    · cases (exec_answerStop hp).symm.trans hrow
      exact .inr (.answer hp rfl fun _ => rfl)

theorem envAct_dstate {a : EnvAct} {s t : State} (h : envAct a s = .next t) :
    t.drv.dstate = s.drv.dstate ∨ DstateEvent s t a := by
  cases a with
  | hwReset => cases h; exact .inr (.reset rfl rfl)
  | cfgWrite off data => exact cfgWrite_dstate h
  | cfgRead off => cases cfgRead_next h; exact .inl rfl
  | cinByte b => exact .inl (by rw [(sourceByte_coreHeld h).drv])
  | cinEos => cases h; exact .inl rfl
  | answer bit => exact answer_dstate h

end Sys2Proof.Machine

open Sys2Proof Sys2Proof.Machine

/-- Settles O51: the core's turn moves DSTATE by a trap only, and an action of the environment by an event of the table. -/
theorem onlyListedEventsChangeDstate : Obligations.OnlyListedEventsChangeDstate := by
  intro s t hinv hconv hstep hne
  rcases step_next hstep with ⟨_, _, hturn⟩ | ⟨_, _, _, t0, _, _, hturn, rfl⟩ | ⟨n, a, rest, hq, _, hact, _⟩
  · exact .inr (.inr (.inr (.inl ((coreTurn_dstate hconv hturn).resolve_left hne))))
  · exact .inr (.inr (.inr (.inl ((coreTurn_dstate hconv hturn).resolve_left hne))))
  · cases (envAct_dstate hact).resolve_left hne with
    | reset ha ht => exact .inl ⟨ht, n, a, rest, hq, ha⟩
    | commitHeader hcode hs ht => exact .inr (.inl ⟨hs, ht, n, _, rest, hq, hcode⟩)
    | start hcode hs ht => exact .inr (.inr (.inl ⟨hs, ht, n, _, rest, hq, hcode⟩))
    | answer hs ht hstop =>
      exact .inr (.inr (.inr (.inr ⟨hinv.pendingDecoding hs, ht, hs, n, _, rest, hq, hstop⟩)))
end

section
/-! SUPPORT. The one trap (R326): whichever row ends in ERROR, from whatever header, has taken a trap of the very state it was
given, with a cause of the stream or with the refused header. `Raised` says so of accepted headers only. -/

namespace Sys2Proof.Machine

/-- `t` is the trap that a cause of the stream, or the refused header, takes in `s` (R320, R326, R292). -/
def TrapOf (s t : State) : Prop :=
  (∃ c : Cause, c.ofStream = true ∧ t = trapEntry .decodeError c s) ∨ raiseUnsupported s = .next t

/-- If the result is a next state, it is not in ERROR or it is a trap of `s`. -/
def TrapsOnly (s : State) (r : Result) : Prop := ∀ t, r = .next t → t.drv.dstate ≠ .error ∨ TrapOf s t

theorem trapsOnly_next {s t : State} (h : t.drv.dstate ≠ .error) : TrapsOnly s (.next t) := by
  rintro u ⟨⟩
  exact .inl h

theorem trapsOnly_raiseDecode {s : State} {c : Cause} (hc : c.ofStream = true) : TrapsOnly s (raiseDecode c s) := by
  rintro t ⟨⟩
  exact .inr (.inl ⟨c, hc, rfl⟩)

theorem trapsOnly_raiseUnsupported (s : State) : TrapsOnly s (raiseUnsupported s) := fun _ h => .inr (.inr h)

theorem trapsOnly_andThen {α : Type} {s : State} {r : Except Stop α} {k : α → Result} (hr : RaisesOfStream r)
    (hk : ∀ a, r = .ok a → TrapsOnly s (k a)) : TrapsOnly s (andThen s r k) := by
  intro t h
  rcases andThen_next h with ⟨a, ha, hka⟩ | ⟨c, hc, rfl⟩
  · exact hk a ha t hka
  · exact .inr (.inl ⟨c, hr c hc, rfl⟩)

/-- A trap does not see the IPOS that the reading moved, so what follows may raise from either state. -/
theorem trapsOnly_readBits {n : Nat} {s : State} {k : Nat × State → Result}
    (hk : ∀ v, TrapsOnly (advance n s) (k (v, advance n s))) : TrapsOnly s (andThen s (readBits n s) k) := by
  refine trapsOnly_andThen (readBits_raises n s) fun ⟨v, s1⟩ hr => ?_
  obtain ⟨rfl, _, _⟩ := readBits_takes hr
  exact hk v

/-! ### Emitting a byte -/

/-- A trap does not see the window and the row buffers it discards. -/
theorem raiseUnsupported_rowReconstructed (b : Byte) (s : State) :
    raiseUnsupported (rowReconstructed b s) = raiseUnsupported s := by
  simp only [raiseUnsupported, trapEntry, freeMem, rowReconstructed_pal]
  rfl

theorem trapsOnly_emit {s : State} (b : Byte) (hs : s.drv.dstate ≠ .error) : TrapsOnly s (emit b s) := by
  cases hphase : s.flt.rphase with
  | tag =>
    rw [emit_tag hphase, runTag_decodeFtag]
    split
    · exact trapsOnly_next hs
    · exact trapsOnly_raiseDecode (s := s) rfl
  | data =>
    by_cases hx : s.flt.rx + 1 = s.flt.pstride
    · rw [emit_lastByte_eq_exec hphase hx, ← runPixel_eq_exec]
      rcases runPixel_cases s.drv.colortype s.drv.bitdepth (rowReconstructed b s) with ⟨px, hrow⟩ | hrow <;> rw [hrow]
      · exact trapsOnly_next hs
      · rw [raiseUnsupported_rowReconstructed]
        exact trapsOnly_raiseUnsupported s
    · rw [emit_midRow hphase hx]
      exact trapsOnly_next hs

/-! ### Rows of the stream -/

theorem trapsOnly_execZhdr {s : State} (cmf flg : Byte) (hs : s.drv.dstate ≠ .error) :
    TrapsOnly s (execZhdr cmf flg s) := by
  unfold execZhdr
  iterate 4
    split
    · exact trapsOnly_raiseDecode rfl
  exact trapsOnly_next hs

theorem trapsOnly_execStoredHdr {s : State} (hs : s.drv.dstate ≠ .error) : TrapsOnly s (execStoredHdr s) := by
  refine trapsOnly_andThen (readStoredHdr_raises s) fun ⟨len, s1⟩ hr => trapsOnly_next ?_
  obtain ⟨rfl, _, _⟩ := readStoredHdr_takes hr
  split <;> exact hs

theorem trapsOnly_execStoredByte {s : State} (hs : s.drv.dstate ≠ .error) : TrapsOnly s (execStoredByte s) := by
  refine trapsOnly_readBits fun v => ?_
  dsimp only
  split <;> exact trapsOnly_emit (BitVec.ofNat 8 v) hs

theorem trapsOnly_execDynHdr {s : State} (hs : s.drv.dstate ≠ .error) : TrapsOnly s (execDynHdr s) := by
  refine trapsOnly_andThen (readDynHdr_raises s) fun s1 hr => trapsOnly_next ?_
  obtain ⟨_, _, _, _, _, _, _, _, _, rfl⟩ := readDynHdr_takes hr
  exact hs

theorem trapsOnly_completeTables {s : State} (hs : s.drv.dstate ≠ .error) : TrapsOnly s (completeTables s) := by
  unfold completeTables
  dsimp only
  split
  · exact trapsOnly_raiseDecode rfl
  · exact trapsOnly_andThen (checkLengths_raises _ _) fun _ _ =>
      trapsOnly_andThen (checkLengths_raises _ _) fun _ _ => trapsOnly_next hs

theorem trapsOnly_clAppend {s : State} (rep : Nat) (v : BitVec 4) (hs : s.drv.dstate ≠ .error) :
    TrapsOnly s (clDone (appendLens rep v s)) := by
  obtain ⟨lens, happ⟩ := appendLens_eq rep v s
  rw [happ, clDone]
  split
  · exact trapsOnly_completeTables (s := s.setInf _) hs
  · exact trapsOnly_next hs

theorem trapsOnly_clRepeat {s : State} (base n : Nat) (v : BitVec 4) (hs : s.drv.dstate ≠ .error) :
    TrapsOnly s (clRepeat base n v s) := by
  refine trapsOnly_readBits fun e => ?_
  dsimp only
  split
  · exact trapsOnly_raiseDecode rfl
  · exact trapsOnly_clAppend _ _ hs

theorem trapsOnly_execCl16 {s : State} (hs : s.drv.dstate ≠ .error) : TrapsOnly s (execCl16 s) := by
  unfold execCl16
  split
  · exact trapsOnly_raiseDecode rfl
  · exact trapsOnly_clRepeat _ _ _ hs

theorem trapsOnly_lengthSymbol {s : State} (base n : Nat) (hs : s.drv.dstate ≠ .error) :
    TrapsOnly s (lengthSymbol base n s) :=
  trapsOnly_readBits fun _ => trapsOnly_next hs

theorem trapsOnly_distanceSymbol {s : State} (base n : Nat) (hs : s.drv.dstate ≠ .error) :
    TrapsOnly s (distanceSymbol base n s) := by
  refine trapsOnly_readBits fun e => ?_
  dsimp only
  split
  · exact trapsOnly_raiseDecode rfl
  · exact trapsOnly_next hs

theorem trapsOnly_execMatchByte {s : State} (hs : s.drv.dstate ≠ .error) : TrapsOnly s (execMatchByte s) := by
  unfold execMatchByte
  dsimp only
  split <;> exact trapsOnly_emit (s.mem.win.read (matchIndex s)) hs

/-! ### Commands and answers -/

theorem trapsOnly_execCommitHeader {s : State} (hs : s.drv.dstate ≠ .error) : TrapsOnly s (execCommitHeader s) := by
  by_cases hd : s.drv.dstate = .uninit
  · rw [execCommitHeader_eq hd]
    split
    · exact trapsOnly_next nofun
    · exact trapsOnly_raiseUnsupported s
  · rw [execCommitHeader_late hd]
    exact trapsOnly_next hs

theorem trapsOnly_execStart {s : State} (hs : s.drv.dstate ≠ .error) : TrapsOnly s (execStart s) := by
  by_cases hd : s.drv.dstate = .headerReady
  · rw [execStart_headerReady hd]
    exact trapsOnly_next nofun
  · rw [execStart_outside hd]
    exact trapsOnly_next hs

theorem rowAdvance_ne_error {s : State} (hs : s.drv.dstate ≠ .error) : (rowAdvance s).drv.dstate ≠ .error := by
  rcases rowAdvance_dstate s with h | h <;> rw [h]
  · exact hs
  · decide

theorem trapsOnly_execAnswerContinue {s : State} (hs : s.drv.dstate ≠ .error) : TrapsOnly s (execAnswerContinue s) := by
  unfold execAnswerContinue
  split
  · exact trapsOnly_next (rowAdvance_ne_error hs)
  · exact trapsOnly_next hs

theorem trapsOnly_execAnswerStop {s : State} (hs : s.drv.dstate ≠ .error) : TrapsOnly s (execAnswerStop s) := by
  unfold execAnswerStop
  split
  · exact trapsOnly_next nofun
  · exact trapsOnly_next hs

/-! ### All rows -/

theorem trapsOnly_exec (i : Instr) {s : State} (hs : s.drv.dstate ≠ .error) : TrapsOnly s (exec i s) := by
  cases i with
  | zhdr cmf flg => exact trapsOnly_execZhdr cmf flg hs
  | blkStored final | blkFixed final | blkDynamic final => exact trapsOnly_next hs
  | storedHdr => exact trapsOnly_execStoredHdr hs
  | storedByte => exact trapsOnly_execStoredByte hs
  | dynHdr => exact trapsOnly_execDynHdr hs
  | cl0 | cl1 | cl2 | cl3 | cl4 | cl5 | cl6 | cl7 | cl8 | cl9 | cl10 | cl11 | cl12 | cl13 | cl14 | cl15 =>
    exact trapsOnly_clAppend 1 _ hs
  | cl16 => exact trapsOnly_execCl16 hs
  | cl17 | cl18 => exact trapsOnly_clRepeat _ _ _ hs
  | lit b => exact trapsOnly_emit b hs
  | eob => exact trapsOnly_next hs
  | len257 | len258 | len259 | len260 | len261 | len262 | len263 | len264 | len265 | len266 | len267 | len268 | len269
  | len270 | len271 | len272 | len273 | len274 | len275 | len276 | len277 | len278 | len279 | len280 | len281 | len282
  | len283 | len284 | len285 =>
    dsimp only [exec]
    exact trapsOnly_lengthSymbol _ _ hs
  | dist0 | dist1 | dist2 | dist3 | dist4 | dist5 | dist6 | dist7 | dist8 | dist9 | dist10 | dist11 | dist12 | dist13
  | dist14 | dist15 | dist16 | dist17 | dist18 | dist19 | dist20 | dist21 | dist22 | dist23 | dist24 | dist25 | dist26
  | dist27 | dist28 | dist29 =>
    dsimp only [exec]
    exact trapsOnly_distanceSymbol _ _ hs
  | matchByte => exact trapsOnly_execMatchByte hs
  | filtNone | filtSub | filtUp | filtAvg | filtPaeth => exact trapsOnly_next hs
  | ll286 | ll287 | dist30 | dist31 | endStep | filtReserved5 => exact trapsOnly_raiseDecode rfl
  | blkReserved _ | filtReserved6to7 _ | filtReserved8to15 _ | filtReserved16to31 _ | filtReserved32to63 _
  | filtReserved64to127 _ | filtReserved128to255 _ => exact trapsOnly_raiseDecode rfl
  | pixG1 | pixG2 | pixG4 | pixG8 | pixRgb8 | pixI1 | pixI2 | pixI4 | pixI8 | pixGa8 | pixRgba8 => exact trapsOnly_next hs
  | pixG16 | pixRgb16 | pixGa16 | pixRgba16 => exact trapsOnly_raiseUnsupported s
  | pixOther ct bd => exact trapsOnly_raiseUnsupported s
  | reset => exact trapsOnly_next nofun
  | commitHeader => exact trapsOnly_execCommitHeader hs
  | start => exact trapsOnly_execStart hs
  | cmdIllegal0 => exact trapsOnly_next hs
  | cmdIllegal4to7 low => exact trapsOnly_next hs
  | answerContinue => exact trapsOnly_execAnswerContinue hs
  | answerStop => exact trapsOnly_execAnswerStop hs

end Sys2Proof.Machine

open Sys2Proof Sys2Proof.Machine

/-- Settles O49: a row that ends in ERROR has taken one of the two traps, and each writes what R326 says. -/
theorem trapWritesOnlyWhatR326Says : Obligations.TrapWritesOnlyWhatR326Says := by
  intro i s t h hs ht
  rcases (trapsOnly_exec i hs t h).resolve_left (not_not.2 ht) with ⟨c, hc, rfl⟩ | hheader
  · obtain ⟨hno, hhd⟩ := (Cause.ofStream_iff c).1 hc
    exact ⟨rfl, rfl, .inl ⟨rfl, hno, hhd, rfl⟩, rfl, rfl, rfl, rfl, rfl, rfl, rfl, rfl, rfl, rfl, rfl, rfl⟩
  · cases hheader
    exact ⟨rfl, rfl, .inr ⟨rfl, rfl, rfl⟩, rfl, rfl, rfl, rfl, rfl, rfl, rfl, rfl, rfl, rfl, rfl, rfl⟩
end

section
/-! SUPPORT. What the environment can do to a core in ERROR, short of a reset (R327, R328, R371). -/

namespace Sys2Proof.Machine

/-- The core takes no step in ERROR (R327). -/
theorem coreTurn_ne_next_of_error {s : State} (hd : s.drv.dstate = .error) (t : State) : coreTurn s ≠ .next t := by
  intro h
  obtain ⟨hdec, _⟩ := coreTurn_next h
  rw [hd] at hdec
  cases hdec

/-- In ERROR every command but RESET is illegal (R302 b). -/
theorem exec_decodeCmd_error {w : Nat} {s : State} (hd : s.drv.dstate = .error) (hw : w % 8 ≠ 1) :
    exec (decodeCmd w) s = invalidCommand s := by
  rcases exec_decodeCmd_byCode w s with ⟨hcode, _⟩ | ⟨_, he⟩ | ⟨_, he⟩ | ⟨_, he⟩
  · exact absurd hcode hw
  · exact he.trans (execCommitHeader_late (by rw [hd]; decide))
  · exact he.trans (execStart_outside (by rw [hd]; decide))
  · exact he

/-- In ERROR a write that is no reset is an illegal command (R302 b) or is outside its window (R294). -/
theorem cfgWrite_error {off : BitVec 11} {data : BitVec 32} {s t : State} (hd : s.drv.dstate = .error)
    (ha : (EnvAct.cfgWrite off data).isReset = false) (h : cfgWrite off data s = .next t) : CoreHeld s t := by
  rcases cfgWrite_next h with ⟨rfl, hcmd⟩ | ⟨_, rfl⟩
  · have hw : data.toNat % 8 ≠ 1 := fun hw => by simp [EnvAct.isReset, hw] at ha
    rw [exec_decodeCmd_error hd hw] at hcmd
    cases hcmd
    exact ⟨rfl, rfl, rfl, rfl, rfl, rfl, rfl⟩
  · rw [cfgStore_closed _ _ (by rw [hd]; decide) (by rw [hd]; decide)]
    exact .refl s

/-- With no row pending an answer does nothing (R302 c). -/
theorem answer_ignored {bit : BitVec 1} {s t : State} (hp : s.drv.rowPending = false)
    (h : envAct (.answer bit) s = .next t) : t = s := by
  have hrow : exec (if bit = 0 then .answerContinue else .answerStop) s = .next t := (runWord_rowans bit _).symm.trans h
  obtain ⟨hcontinue, hstop⟩ := exec_answer_ignored hp
  split at hrow
  · cases hcontinue.symm.trans hrow; rfl
  · cases hstop.symm.trans hrow; rfl

theorem envAct_error {a : EnvAct} {s t : State} (hd : s.drv.dstate = .error) (hp : s.drv.rowPending = false)
    (hreset : a.isReset = false) (h : envAct a s = .next t) : CoreHeld s t := by
  cases a with
  | hwReset => cases hreset
  | cfgWrite off data => exact cfgWrite_error hd hreset h
  | cfgRead off => cases cfgRead_next h; exact ⟨rfl, rfl, rfl, rfl, rfl, rfl, rfl⟩
  | cinByte b => exact sourceByte_coreHeld h
  | cinEos => cases h; exact ⟨rfl, rfl, rfl, rfl, rfl, rfl, rfl⟩
  | answer bit => cases answer_ignored hp h; exact .refl _

end Sys2Proof.Machine

open Sys2Proof Sys2Proof.Machine

/-- Settles O52: the core has no turn in ERROR, so the step is the queued action; no row is pending for an answer to end. -/
theorem errorIsAbsorbing : Obligations.ErrorIsAbsorbing := by
  intro s t n a rest hd hinv hq hreset hstep
  have hp : s.drv.rowPending = false := hinv.not_pending (by rw [hd]; decide)
  have hrout : s.rout = none := Option.isNone_iff_eq_none.1 (by rw [← Option.not_isSome, ← hinv.pendingRecord, hp]; rfl)
  rcases step_next hstep with ⟨_, _, hturn⟩ | ⟨_, _, _, t0, _, _, hturn, _⟩ | ⟨n', a', rest', hq', _, hact, _⟩
  · exact absurd hturn (coreTurn_ne_next_of_error hd t)
  · exact absurd hturn (coreTurn_ne_next_of_error hd t0)
  · cases hq.symm.trans hq'
    have hheld : CoreHeld (s.setInputs rest) t := envAct_error hd hp hreset hact
    exact ⟨hheld.drv, hheld.inf, hheld.flt, hheld.pix, hheld.mem, hheld.rout.trans hrout, hheld.pulled⟩
end
